-- ==== Sys2Proof/Word.lean ====
section
/-! DEFINITION. The word types of the block (00_scope.md section 6): a byte is a `u8`; 16-bit lengths and checksums,
32-bit arguments, masks and raw values. Unsigned values and two's-complement signed values are read with `BitVec.toNat`
and `BitVec.toInt` (log 13). -/

namespace Sys2Proof

/-- A byte, `u8` (00_scope.md section 6). -/
abbrev Byte := BitVec 8

/-- A 16-bit value, `u16`: a payload length, a checksum. -/
abbrev Half := BitVec 16

/-- A 32-bit value, `u32`: an argument, a mask, a raw value, the data of a response. -/
abbrev Word := BitVec 32

/-- A 40-bit command or response word (R80, R84). -/
abbrev PortWord := BitVec 40

/-- The schema slots, bit indices 0 to 22 (R12 `NSLOT`). -/
abbrev Slot := Fin 23

end Sys2Proof
end

