-- ==== Sys2Proof/Syntax.lean ====
section
/-! DEFINITION. The instructions: one constructor per row of spec/opcode_table.json. The sixteen operations of the
command port (R81), and the twenty-seven rows over what an operation carries (R107): the header and terminator bytes of a
frame, the bits of a presence mask (logs 1 to 3). Also what the host presents to the block. -/

namespace Sys2Proof

/-- One constructor per row of spec/opcode_table.json. Operands are the unsigned values of R83. -/
inductive Instr where
  /-- `NOP` (R231). -/
  | nop
  /-- `RESET` (R232). -/
  | reset
  /-- `CSR.RD n` (R233). -/
  | csrRd (n : Byte)
  /-- `CRC.CLR` (R124). -/
  | crcClr
  /-- `CRC.UPD b` (R125). -/
  | crcUpd (b : Byte)
  /-- `ENC.START len` (R143). -/
  | encStart (len : Half)
  /-- `ENC.PUSH b` (R144). -/
  | encPush (b : Byte)
  /-- `ENC.ABORT` (R145). -/
  | encAbort
  /-- `DEC.BYTE b` (R165). -/
  | decByte (b : Byte)
  /-- `DEC.RD idx` (R166). -/
  | decRd (idx : Half)
  /-- `DEC.DROP` (R167). -/
  | decDrop
  /-- `UNP.CLR` (R210). -/
  | unpClr
  /-- `UNP.PUSH b` (R211). -/
  | unpPush (b : Byte)
  /-- `UNP.RUN mask` (R212). -/
  | unpRun (mask : Word)
  /-- `UNP.RD slot` (R213). -/
  | unpRd (slot : BitVec 5)
  /-- `SCH.RD slot` (R195). -/
  | schRd (slot : BitVec 5)
  /-- Row `FRAME.SHORT`: the byte 0x02 received at a header position (R88, R90). -/
  | frameShort
  /-- Row `FRAME.LONG`: the byte 0x03 received at a header position (R89, R90). -/
  | frameLong
  /-- Row `FRAME.TERMINATOR`: the byte 0x03 received at a terminator position (R93). -/
  | frameTerminator
  -- Rows `FIELD.0` to `FIELD.22`: the presence mask that selects that slot alone (R107, R203 to R205).
  | field0
  | field1
  | field2
  | field3
  | field4
  | field5
  | field6
  | field7
  | field8
  | field9
  | field10
  | field11
  | field12
  | field13
  | field14
  | field15
  | field16
  | field17
  | field18
  | field19
  | field20
  | field21
  | field22
  /-- Row `FIELD.RESERVED`: any other presence mask, judged by its reserved bits 31 to 23 (R98, R209). -/
  | fieldReserved (m : Word)
  deriving DecidableEq, Repr

/-- What the host presents to the block at one step, in the three formats of R107: a command word (R80), a byte of the
received stream (R65), a presence mask (R83). -/
inductive HostItem where
  | cmd (w : PortWord)
  | rx (b : Byte)
  | mask (m : Word)
  deriving DecidableEq, Repr

/-- What can happen at the block's edge between two operations: an item presented by the host, or the reset input
(R280, R282). -/
inductive PortEvent where
  | item (h : HostItem)
  | resetInput
  deriving DecidableEq, Repr

/-- Where in a frame the next received byte falls. The header 0x03 and the terminator 0x03 "are told apart by position
only" (R93). -/
inductive FramePos where
  | header
  | data
  | terminator
  deriving DecidableEq, Repr

end Sys2Proof
end

