-- ==== Sys2Proof/WellFormed.lean ====
section
/-! DEFINITION. Well-formed instructions. Operand widths are in the types (R83); the one check left is that a mask which
selects one slot alone is spelled by that slot's own row (log 3). -/

namespace Sys2Proof

/-- A presence mask with exactly one bit set, at an index 0 to 22: the `match` value of a FIELD row (R107). -/
def isFieldMask (m : Word) : Bool :=
  (List.range 23).any fun i => m == 1#32 <<< i

/-- Every operand value inside the operand field is well formed, since the operation's own rule answers the ones it cannot
use (R82). `FIELD.RESERVED` stands for the masks that no FIELD row spells. -/
def WellFormed : Instr → Bool
  | .fieldReserved m => !isFieldMask m
  | _ => true

end Sys2Proof
end

