-- ==== Sys2Proof/Decode.lean ====
section
/-! DEFINITION. Decoding what the host presents into an instruction, and encoding back. Command words follow R80 to R83 and
R99; a received byte and a presence mask are read by the rows of R107 (logs 1 to 3). -/

namespace Sys2Proof

/-- Why a command word is no operation (R82): the two causes of `ILLEGAL_OP`, in the order they are tested. -/
inductive DecodeError where
  /-- `op` is not one of the sixteen assigned codes. -/
  | unassignedOp (op : BitVec 8)
  /-- A reserved bit of `arg` is 1. -/
  | reservedBits (op : BitVec 8) (arg : Word)
  deriving DecidableEq, Repr

/-- `CMD[39:32]` (R80). -/
def cmdOp (w : PortWord) : BitVec 8 := w.extractLsb' 32 8

/-- `CMD[31:0]` (R80). -/
def cmdArg (w : PortWord) : Word := w.extractLsb' 0 32

/-- The operand of `k` bits at the bottom of `arg`, unsigned, when every bit above it is 0 (R81, R82, R83). -/
def withOperand (k : Nat) (w : PortWord) (mk : BitVec k → Instr) : Except DecodeError Instr :=
  if cmdArg w >>> k = 0#32 then .ok (mk ((cmdArg w).setWidth k))
  else .error (.reservedBits (cmdOp w) (cmdArg w))

/-- An operation without an operand: the whole of `arg` is reserved (R81). -/
def withoutOperand (w : PortWord) (i : Instr) : Except DecodeError Instr :=
  withOperand 0 w fun _ => i

/-- Decoding a command word (R81, R82): first the operation code, then the reserved bits, then the operand. -/
def decodeCmd (w : PortWord) : Except DecodeError Instr :=
  match (cmdOp w).toNat with
  | 0x00 => withoutOperand w .nop
  | 0x01 => withoutOperand w .reset
  | 0x02 => withOperand 8 w .csrRd
  | 0x10 => withoutOperand w .crcClr
  | 0x11 => withOperand 8 w .crcUpd
  | 0x20 => withOperand 16 w .encStart
  | 0x21 => withOperand 8 w .encPush
  | 0x22 => withoutOperand w .encAbort
  | 0x30 => withOperand 8 w .decByte
  | 0x31 => withOperand 16 w .decRd
  | 0x32 => withoutOperand w .decDrop
  | 0x40 => withoutOperand w .unpClr
  | 0x41 => withOperand 8 w .unpPush
  | 0x42 => withOperand 32 w .unpRun
  | 0x43 => withOperand 5 w .unpRd
  | 0x44 => withOperand 5 w .schRd
  | _ => .error (.unassignedOp (cmdOp w))

/-- A received byte, by its position in the frame: the two headers and the terminator have rows of their own (R88, R89,
R93); any other received byte is given to the decoder as `DEC.BYTE` (R65). -/
def decodeRx (p : FramePos) (b : Byte) : Instr :=
  match p with
  | .header => if b = 0x02#8 then .frameShort else if b = 0x03#8 then .frameLong else .decByte b
  | .terminator => if b = 0x03#8 then .frameTerminator else .decByte b
  | .data => .decByte b

/-- The FIELD rows of the table: slot i is selected by the bit `1 << i` (R107). -/
def fieldRows : List (Word × Instr) :=
  [
   (0x1#32, .field0),
   (0x2#32, .field1),
   (0x4#32, .field2),
   (0x8#32, .field3),
   (0x10#32, .field4),
   (0x20#32, .field5),
   (0x40#32, .field6),
   (0x80#32, .field7),
   (0x100#32, .field8),
   (0x200#32, .field9),
   (0x400#32, .field10),
   (0x800#32, .field11),
   (0x1000#32, .field12),
   (0x2000#32, .field13),
   (0x4000#32, .field14),
   (0x8000#32, .field15),
   (0x10000#32, .field16),
   (0x20000#32, .field17),
   (0x40000#32, .field18),
   (0x80000#32, .field19),
   (0x100000#32, .field20),
   (0x200000#32, .field21),
   (0x400000#32, .field22)]

/-- A presence mask: the FIELD row it spells, or else `FIELD.RESERVED` (log 3). -/
def decodeMask (m : Word) : Instr :=
  match fieldRows.find? fun r => r.1 == m with
  | some r => r.2
  | none => .fieldReserved m

/-- Total decoding of what the host presents, rejecting a malformed command word by name. -/
def decode (p : FramePos) : HostItem → Except DecodeError Instr
  | .cmd w => decodeCmd w
  | .rx b => .ok (decodeRx p b)
  | .mask m => .ok (decodeMask m)

/-- The command word of operation code `op` with a `k`-bit operand (R80, R105). -/
def cmdWord (op : BitVec 8) (arg : Word) : PortWord := op ++ arg

/-- The encoding of an instruction: the command word of R81, the byte of a FRAME row, the mask of a FIELD row. -/
def encode : Instr → HostItem
  | .nop => .cmd (cmdWord 0x00#8 0#32)
  | .reset => .cmd (cmdWord 0x01#8 0#32)
  | .csrRd n => .cmd (cmdWord 0x02#8 (n.setWidth 32))
  | .crcClr => .cmd (cmdWord 0x10#8 0#32)
  | .crcUpd b => .cmd (cmdWord 0x11#8 (b.setWidth 32))
  | .encStart len => .cmd (cmdWord 0x20#8 (len.setWidth 32))
  | .encPush b => .cmd (cmdWord 0x21#8 (b.setWidth 32))
  | .encAbort => .cmd (cmdWord 0x22#8 0#32)
  | .decByte b => .cmd (cmdWord 0x30#8 (b.setWidth 32))
  | .decRd idx => .cmd (cmdWord 0x31#8 (idx.setWidth 32))
  | .decDrop => .cmd (cmdWord 0x32#8 0#32)
  | .unpClr => .cmd (cmdWord 0x40#8 0#32)
  | .unpPush b => .cmd (cmdWord 0x41#8 (b.setWidth 32))
  | .unpRun mask => .cmd (cmdWord 0x42#8 mask)
  | .unpRd slot => .cmd (cmdWord 0x43#8 (slot.setWidth 32))
  | .schRd slot => .cmd (cmdWord 0x44#8 (slot.setWidth 32))
  | .frameShort => .rx 0x02#8
  | .frameLong => .rx 0x03#8
  | .frameTerminator => .rx 0x03#8
  | .field0 => .mask 0x1#32
  | .field1 => .mask 0x2#32
  | .field2 => .mask 0x4#32
  | .field3 => .mask 0x8#32
  | .field4 => .mask 0x10#32
  | .field5 => .mask 0x20#32
  | .field6 => .mask 0x40#32
  | .field7 => .mask 0x80#32
  | .field8 => .mask 0x100#32
  | .field9 => .mask 0x200#32
  | .field10 => .mask 0x400#32
  | .field11 => .mask 0x800#32
  | .field12 => .mask 0x1000#32
  | .field13 => .mask 0x2000#32
  | .field14 => .mask 0x4000#32
  | .field15 => .mask 0x8000#32
  | .field16 => .mask 0x10000#32
  | .field17 => .mask 0x20000#32
  | .field18 => .mask 0x40000#32
  | .field19 => .mask 0x80000#32
  | .field20 => .mask 0x100000#32
  | .field21 => .mask 0x200000#32
  | .field22 => .mask 0x400000#32
  | .fieldReserved m => .mask m

/-- The position in a frame at which an instruction is decoded: the terminator row at a terminator position, everything else
at a header position. -/
def encodePos : Instr → FramePos
  | .frameTerminator => .terminator
  | _ => .header

/-- A table row's word as an item the host presents (log 20): 40 bits are a command word; 8 bits holding a header value are a
received byte; anything else is a presence mask, its bits above `nbits` being 0. -/
def tableItem (nbits w : Nat) : HostItem :=
  if nbits = 40 then .cmd (BitVec.ofNat 40 w)
  else if nbits = 8 ∧ (w = 2 ∨ w = 3) then .rx (BitVec.ofNat 8 w)
  else .mask (BitVec.ofNat 32 w)

/-- The instruction the decoder reads from a table row's word, as the first one after reset: a received byte is then at a
header position. -/
def decodeTableWord (nbits w : Nat) : Option Instr :=
  (decode .header (tableItem nbits w)).toOption

end Sys2Proof
end

