-- ==== Sys2Proof/Config.lean ====
section
/-! DEFINITION. What an implementation fixes: the constants of R12, the parameters of R13 with the values this hardware
takes, and the free value of R17. -/

namespace Sys2Proof

/-- The parameters the source leaves open (R13). They are constants of an instance of the block (R35; log 6). -/
structure Config where
  /-- `LONG_DECODE`: whether the decoder accepts header 0x03. -/
  longDecode : Bool
  /-- `UBUF_SIZE`: bytes in the unpacker's payload buffer. -/
  ubufSize : Nat
  /-- `SCALE[0..22]`: the divisor of each slot, none for an opaque slot (R193). -/
  scale : Vector (Option Nat) 23
  /-- `NAME[0..22]`: names for the reader of a record; they reach no register and no wire (R194). -/
  name : Vector String 23
  /-- `TS_W`: the width of the capture timestamp (log 17). -/
  tsW : Nat
  deriving DecidableEq, Repr

namespace Config

/-- `CRC_POLY` without its x^16 term (R12, R121). -/
abbrev crcPoly : Half := 0x1021#16
/-- `CRC_INIT` (R12). -/
abbrev crcInit : Half := 0x0000#16
/-- `HDR_SHORT` (R12). -/
abbrev hdrShort : Byte := 0x02#8
/-- `HDR_LONG` (R12). -/
abbrev hdrLong : Byte := 0x03#8
/-- `TERM` (R12). -/
abbrev term : Byte := 0x03#8
/-- `SHORT_LIMIT`: the encoder selects the short form iff the length is at most this (R12, R15). -/
abbrev shortLimit : Nat := 256
/-- `LEN_MAX` (R12). -/
abbrev lenMax : Nat := 65535
/-- The one length the encoder refuses (R15). -/
abbrev lenRefused : Half := 256#16

/-- The value the `width`-bit time source presents at the n-th draw: a FREE VALUE under no law (R17, R218; log 8). -/
opaque timeIn (width n : Nat) : BitVec width

/-- `RXBUF_SIZE`, the largest frame the decoder can accept (R13, R61). -/
def rxbufSize (c : Config) : Nat := if c.longDecode then 65541 else 260

/-- `SCALE` of this hardware (R193). Slots 0, 1, 15 and 17 are the source's; the others are the spec's default
(log 12, PRESUMED). -/
def defaultScale : Vector (Option Nat) 23 :=
  #v[some 10, some 10, some 100, some 100, some 100, some 100, some 1000, some 1,
     some 10, some 10000, some 10000, some 10000, some 10000, some 1, some 1, none,
     some 1000000, none, some 10, some 10, some 10, some 1000, some 1000]

/-- `NAME` of this hardware (R194). Slots 0 and 1 are the source's; the others are the spec's default
(log 12, PRESUMED). -/
def defaultName : Vector String 23 :=
  #v["temperature_fet", "temperature_motor", "avg_motor_current", "avg_input_current",
     "avg_id", "avg_iq", "duty_cycle", "rpm", "input_voltage", "amp_hours",
     "amp_hours_charged", "watt_hours", "watt_hours_charged", "tachometer",
     "tachometer_abs", "fault_code", "pid_pos", "controller_id", "temperature_mos1",
     "temperature_mos2", "temperature_mos3", "avg_vd", "avg_vq"]

/-- The values this hardware takes (R13). -/
def thisHardware : Config :=
  { longDecode := false, ubufSize := 256, scale := defaultScale, name := defaultName, tsW := 32 }

/-- The requirements on a configuration: `UBUF_SIZE` at least 72 (R13) and within the 16-bit `UBUF_LEN` (R27; log 7);
the four scales the source fixes, every other a positive integer below 2^24 (R193); the two names it fixes (R194). -/
def ok (c : Config) : Bool :=
  decide (72 ≤ c.ubufSize) && decide (c.ubufSize ≤ 65535)
    && (c.scale[0] == some 10) && (c.scale[1] == some 10)
    && (c.scale[15] == none) && (c.scale[17] == none)
    && (c.scale.toList.zipIdx.all fun p =>
          match p.1 with
          | some d => decide (0 < d) && decide (d < 16777216)
          | none => p.2 == 15 || p.2 == 17)
    && (c.name[0] == "temperature_fet") && (c.name[1] == "temperature_motor")

end Config
end Sys2Proof
end

