-- ==== Sys2Proof/Machine/State.lean ====
section
/-! DEFINITION. The state of one block (R20) as plain data, its value after reset (R55), and the reasons a step of the
MODEL can stop. Protocol errors and refusals of the command port are outcomes of the machine and so next states, not
stops (R265). -/

namespace Sys2Proof.Machine

/-- Raised by nothing a program can reach. -/
inductive Fault where
  /-- An operation would access `RXBUF` or `UBUF` at an index outside the buffer, which R60 and R72 say no operation
  does. Raised by the buffer accesses of `Machine/Ops.lean`, in no reachable state (log 10). Safe. -/
  | outsideBuffer
  deriving DecidableEq, Repr

/-- Instructions without a meaning. -/
inductive Refusal where
  /-- The instruction of this mnemonic is not modelled. Raised by an arm of `exec` only; no arm raises it now. Safe. -/
  | notModelled (mnemonic : String)
  deriving DecidableEq, Repr

/-- `ENC_STATE` (R24). -/
inductive EncState where
  /-- No frame in progress. -/
  | idle
  /-- Header and length emitted, payload bytes being taken. -/
  | pay
  deriving DecidableEq, Repr

/-- `DEC_STATE` (R24). The values 5, 6 and 7 are never reached and have no constructor (I21, log 11). -/
inductive DecState where
  | hdr
  | len
  | lenh
  | lenl
  | acc
  deriving DecidableEq, Repr

/-- `DEC_RES` (R29). -/
inductive DecRes where
  | none
  | ok
  | unsupportedHeader
  | badTerminator
  | checksumMismatch
  deriving DecidableEq, Repr

/-- `U_RES` (R30). -/
inductive URes where
  | none
  | ok
  | truncatedPayload
  | schemaExhausted
  deriving DecidableEq, Repr

/-- The status codes of R85. -/
inductive Status where
  | ok
  | pending
  | frameOk
  | absent
  | unsupportedHeader
  | badTerminator
  | checksumMismatch
  | truncatedPayload
  | schemaExhausted
  | illegalOp
  | illegalState
  | lengthUnrepresentable
  | bufferFull
  | indexRange
  | noData
  deriving DecidableEq, Repr

/-- The five protocol errors (R251), the block's exceptions. -/
inductive ProtoError where
  | unsupportedHeader
  | badTerminator
  | checksumMismatch
  | truncatedPayload
  | schemaExhausted
  deriving DecidableEq, Repr

/-- The six refusals of the command port (R258). -/
inductive PortRefusal where
  | illegalOp
  | illegalState
  | lengthUnrepresentable
  | bufferFull
  | indexRange
  | noData
  deriving DecidableEq, Repr

/-- The response word `RSP` before it is laid out in 40 bits (R84). -/
structure Response where
  status : Status
  data : Word
  deriving DecidableEq, Repr

/-- A byte buffer: (index, byte) pairs with rising indices, none of them holding what an unlisted index reads as
(`Memory.unlisted`). -/
abbrev Memory := List Host.Cell

/-- What an unlisted byte of a buffer reads as. R55 leaves buffer contents after reset unspecified and R72 lets no
operation read them: DESIGN CHOICE, unsafe (log 9). -/
abbrev Memory.unlisted : Byte := 0#8

/-- The complete architectural state of one block (R20), then the outputs of the last step, then the model's own
fields. -/
structure State where
  /-- `CRC_ACC` (R21). -/
  crcAcc : Half
  /-- `ENC_STATE` (R24). -/
  encState : EncState
  /-- `ENC_REM` (R22). -/
  encRem : Half
  /-- `ENC_CRC` (R22). -/
  encCrc : Half
  /-- `DEC_STATE` (R24). -/
  decState : DecState
  /-- `DEC_CNT` (R25). -/
  decCnt : BitVec 17
  /-- `DEC_L` (R23). -/
  decL : Half
  /-- `DEC_OFF` (R23). -/
  decOff : BitVec 2
  /-- `DEC_RES` (R29). -/
  decRes : DecRes
  /-- `DEC_CRC_CALC` (R23). -/
  decCrcCalc : Half
  /-- `DEC_CRC_RECV` (R23). -/
  decCrcRecv : Half
  /-- `RXBUF` (R61). -/
  rxbuf : Memory
  /-- `UBUF` (R62). -/
  ubuf : Memory
  /-- `UBUF_LEN` (R27). -/
  ubufLen : Half
  /-- `U_MASK` (R27). -/
  uMask : Word
  /-- `U_RES` (R30). -/
  uRes : URes
  /-- `U_VALID` (R28). -/
  uValid : BitVec 23
  /-- `U_RAW[0..22]` (R28). -/
  uRaw : Vector Word 23
  /-- `U_CONSUMED` (R27). -/
  uConsumed : BitVec 7
  /-- `U_TS` (R27), an unsigned value below `2 ^ TS_W` (log 17). -/
  uTs : Nat
  /-- `ERRLOG` (R31). -/
  errlog : Word
  /-- `TXOUT`, every byte ever emitted, first byte first (R33). -/
  txout : List Byte
  /-- The response of the last step, none where it had none (R84, R282; log 5). -/
  rsp : Option Response
  /-- The bytes delivered with that response (R84, R86; log 5). -/
  emitted : List Byte
  /-- The model's: what the host presents next, in order (R74; log 4). -/
  port : List PortEvent
  /-- The model's: how many timestamps have been drawn (R17; log 8). -/
  draws : Nat
  /-- The instance's parameters (R13, R35; log 6). -/
  cfg : Config
  deriving DecidableEq, Repr

/-- The state after reset (R55): every register 0 but `DEC_OFF` = 2, buffers with nothing listed, an empty TX stream (as at
power-on), no response yet, nothing presented, and this hardware's parameters. -/
def State.reset : State :=
  { crcAcc := 0, encState := .idle, encRem := 0, encCrc := 0,
    decState := .hdr, decCnt := 0, decL := 0, decOff := 2, decRes := .none, decCrcCalc := 0, decCrcRecv := 0,
    rxbuf := [], ubuf := [], ubufLen := 0, uMask := 0, uRes := .none, uValid := 0,
    uRaw := Vector.replicate 23 0, uConsumed := 0, uTs := 0, errlog := 0, txout := [],
    rsp := none, emitted := [], port := [], draws := 0, cfg := Config.thisHardware }

end Sys2Proof.Machine
end

