-- ==== Sys2Proof/Machine/Flags.lean ====
section
/-! DEFINITION. Codes and flags: the numeric codes of the state and result registers (R24, R29, R30), the status codes and
the response word (R84, R85), the error classes (R257), and the bits of `ERRLOG` (R31). The block has no arithmetic
condition codes. -/

namespace Sys2Proof.Machine

/-- The code of `ENC_STATE` (R24). -/
def EncState.code : EncState → BitVec 1
  | .idle => 0
  | .pay => 1

/-- The code of `DEC_STATE` (R24). -/
def DecState.code : DecState → BitVec 3
  | .hdr => 0
  | .len => 1
  | .lenh => 2
  | .lenl => 3
  | .acc => 4

/-- The code of `DEC_RES` (R29). -/
def DecRes.code : DecRes → BitVec 4
  | .none => 0
  | .ok => 1
  | .unsupportedHeader => 2
  | .badTerminator => 3
  | .checksumMismatch => 4

/-- The code of `U_RES` (R30). -/
def URes.code : URes → BitVec 4
  | .none => 0
  | .ok => 1
  | .truncatedPayload => 2
  | .schemaExhausted => 3

/-- The status code (R85). -/
def Status.code : Status → BitVec 8
  | .ok => 0x00
  | .pending => 0x01
  | .frameOk => 0x02
  | .absent => 0x03
  | .unsupportedHeader => 0x10
  | .badTerminator => 0x11
  | .checksumMismatch => 0x12
  | .truncatedPayload => 0x20
  | .schemaExhausted => 0x21
  | .illegalOp => 0x30
  | .illegalState => 0x31
  | .lengthUnrepresentable => 0x32
  | .bufferFull => 0x33
  | .indexRange => 0x34
  | .noData => 0x35

/-- `RSP`: the status code above the data (R84). -/
def Response.word (r : Response) : PortWord := r.status.code ++ r.data

/-- The class `FramingError` (R257). -/
def Status.isFramingError (x : Status) : Bool := x = .unsupportedHeader || x = .badTerminator

/-- The class `IntegrityError` (R257). -/
def Status.isIntegrityError (x : Status) : Bool := x = .checksumMismatch

/-- The class `SchemaError` (R257). -/
def Status.isSchemaError (x : Status) : Bool := x = .truncatedPayload || x = .schemaExhausted

/-- The status of a protocol error (R251). -/
def ProtoError.status : ProtoError → Status
  | .unsupportedHeader => .unsupportedHeader
  | .badTerminator => .badTerminator
  | .checksumMismatch => .checksumMismatch
  | .truncatedPayload => .truncatedPayload
  | .schemaExhausted => .schemaExhausted

/-- The `ERRLOG` bit of a protocol error (R31, R251). -/
def ProtoError.logBit : ProtoError → Nat
  | .unsupportedHeader => 0
  | .badTerminator => 1
  | .checksumMismatch => 2
  | .truncatedPayload => 3
  | .schemaExhausted => 4

/-- The status of a refusal (R258). -/
def PortRefusal.status : PortRefusal → Status
  | .illegalOp => .illegalOp
  | .illegalState => .illegalState
  | .lengthUnrepresentable => .lengthUnrepresentable
  | .bufferFull => .bufferFull
  | .indexRange => .indexRange
  | .noData => .noData

/-- The `ERRLOG` bit of a refusal (R31, R258). -/
def PortRefusal.logBit : PortRefusal → Nat
  | .illegalOp => 8
  | .illegalState => 9
  | .lengthUnrepresentable => 10
  | .bufferFull => 11
  | .indexRange => 12
  | .noData => 13

/-- `ERRLOG` with bit `k` set; no other bit changes (R31: the log is sticky). -/
def withLogBit (k : Nat) (log : Word) : Word := log ||| (1#32 <<< k)

/-- Presence bit `i` of a mask or of `U_VALID` (R27, R28, R98). -/
def hasBit {w : Nat} (m : BitVec w) (i : Slot) : Bool := m.getLsbD i.val

/-- `mask[31:23]`, the reserved bits of a presence mask (R98). -/
def maskReserved (m : Word) : BitVec 9 := m.extractLsb' 23 9

/-- `mask[22:0]`, the slots a presence mask selects (R98). -/
def maskSlots (m : Word) : BitVec 23 := m.extractLsb' 0 23

end Sys2Proof.Machine
end

