-- ==== Sys2Proof/Machine/Operands.lean ====
section
/-! DEFINITION. Operands and byte order: big-endian assembly of bytes and its inverse (R66, 00_scope.md section 6), sign
and zero extension, and what the bits above a register's field mean. Everything multi-byte is big-endian. -/

namespace Sys2Proof.Machine

/-- `be16(b0, b1)`: the first byte is the more significant (00_scope.md section 6, R66). -/
def be16 (b0 b1 : Byte) : Half := b0 ++ b1

/-- `be32(b0, b1, b2, b3)` (00_scope.md section 6, R66). -/
def be32 (b0 b1 b2 b3 : Byte) : Word := ((b0 ++ b1) ++ b2) ++ b3

/-- Bits [15:8] of a 16-bit value, the byte that goes first on the wire (R66). -/
def hiByte (h : Half) : Byte := h.extractLsb' 8 8

/-- Bits [7:0] of a 16-bit value. -/
def loByte (h : Half) : Byte := h.extractLsb' 0 8

/-- The two big-endian bytes of a 16-bit value (R66). -/
def bytesOf16 (h : Half) : List Byte := [hiByte h, loByte h]

/-- The four big-endian bytes of a 32-bit value (R66). -/
def bytesOf32 (v : Word) : List Byte :=
  [v.extractLsb' 24 8, v.extractLsb' 16 8, v.extractLsb' 8 8, v.extractLsb' 0 8]

/-- `zext_32` of a byte. -/
def zext8 (b : Byte) : Word := b.setWidth 32

/-- `zext_32` of a 16-bit value. -/
def zext16 (h : Half) : Word := h.setWidth 32

/-- `sext_32` of a 16-bit value (00_scope.md section 6, R203). -/
def sext16 (h : Half) : Word := h.signExtend 32

/-- A natural number as response data (R84). -/
def dataOf (n : Nat) : Word := BitVec.ofNat 32 n

/-- The mask with the one bit `i`, `1 << slot` (R107). -/
def slotMask (i : Slot) : Word := 1#32 <<< i.val

/-- A 5-bit slot operand as a schema slot, none for 23 to 31 (R83). -/
def slotOf (x : BitVec 5) : Option Slot :=
  if h : x.toNat < 23 then some ⟨x.toNat, h⟩ else none

/-- The slots in ascending order, the order of every walk over the schema (R100, R202). -/
def allSlots : List Slot :=
  [0, 1, 2, 3, 4, 5, 6, 7, 8, 9, 10, 11, 12, 13, 14, 15, 16, 17, 18, 19, 20, 21, 22]

end Sys2Proof.Machine
end

