-- ==== Sys2Proof/Machine/Ops.lean ====
section
/-! DEFINITION. The shared operations of the machine: the byte buffers, answering an operation, refusing one (R258), raising
a protocol error (R260, the block's exception entry), resetting the block (R281), and taking what the host presents next.
There is no return from an error and nothing to restore (R261). -/

namespace Sys2Proof.Machine

/-! ### Byte buffers (R60 to R62, R67, R69) -/

/-- The byte at index `a`. -/
def Memory.read : Memory → Nat → Byte
  | [], _ => Memory.unlisted
  | (k, v) :: rest, a => if k = a then v else Memory.read rest a

/-- `MemWrite(S, a, 1, v)` (00_scope.md section 6), keeping the canonical form: writing what an unlisted byte reads as
removes the entry. -/
def Memory.write : Memory → Nat → Byte → Memory
  | [], a, v => if v = Memory.unlisted then [] else [(a, v)]
  | (k, w) :: rest, a, v =>
    if k < a then (k, w) :: Memory.write rest a v
    else if k = a then (if v = Memory.unlisted then rest else (a, v) :: rest)
    else if v = Memory.unlisted then (k, w) :: rest else (a, v) :: (k, w) :: rest

/-- The canonical form: indices strictly rising, every listed byte other than what an unlisted one reads as. -/
def Memory.wf : Memory → Bool
  | [] => true
  | [(_, v)] => v != Memory.unlisted
  | (a, v) :: (b, w) :: rest => v != Memory.unlisted && decide (a < b) && Memory.wf ((b, w) :: rest)

/-- The `n` bytes from index `a` on, `S[a .. a+n)`. -/
def Memory.slice (m : Memory) (a n : Nat) : List Byte := (List.range n).map fun i => m.read (a + i)

/-- Writing one byte of a buffer of `size` bytes, none outside it (R60, R72; log 10). -/
def writeByte (size : Nat) (m : Memory) (a : Nat) (v : Byte) : Option Memory :=
  if a < size then some (m.write a v) else none

/-- Reading a run of bytes of a buffer of `size` bytes in index order, none outside it (R69, R72; log 10). -/
def readRun (size : Nat) (m : Memory) (a n : Nat) : Option (List Byte) :=
  if a + n ≤ size then some (m.slice a n) else none

/-- `MemRead(S, a, 1)` (00_scope.md section 6). -/
def readByte (size : Nat) (m : Memory) (a : Nat) : Option Byte :=
  if a < size then some (m.read a) else none

/-- `MemRead(S, a, 2)`: big-endian (00_scope.md section 6, R66). -/
def readHalf (size : Nat) (m : Memory) (a : Nat) : Option Half :=
  if a + 1 < size then some (be16 (m.read a) (m.read (a + 1))) else none

/-- An access that exists goes on; one outside its buffer stops the model (log 10). -/
def orFault : Option State → Host.Outcome State Fault Refusal
  | some s => .next s
  | none => .fault .outsideBuffer

/-! ### Answering (R84, R86) -/

/-- `respond(st, d)` with the emitted bytes: the same bytes are appended to `TXOUT` and handed over with the response
(R86). -/
def answer (st : Status) (d : Word) (bytes : List Byte) (s : State) : State :=
  { s with rsp := some ⟨st, d⟩, emitted := bytes, txout := s.txout ++ bytes }

/-- `respond(OK, d)` with nothing emitted. -/
def answerOk (d : Word) (s : State) : State := answer .ok d [] s

/-- `refuse R`: nothing changes but the `ERRLOG` bit of the refusal; data 0, nothing emitted (R258). -/
def refuse (r : PortRefusal) (s : State) : State :=
  answer r.status 0 [] { s with errlog := withLogBit r.logBit s.errlog }

/-! ### Taking an exception (R260) -/

/-- The unpacker's record registers zeroed (R255, R256, R210). -/
def clearRecord (s : State) : State :=
  { s with uValid := 0, uRaw := Vector.replicate 23 0, uConsumed := 0, uTs := 0 }

/-- Parts (1) and (2) of an error's entry (R260): the unit's result register takes the error's code and the unit's work in
progress is discarded as R252 to R256 say. -/
def enterError (e : ProtoError) (s : State) : State :=
  match e with
  | .unsupportedHeader => { s with decState := .hdr, decCnt := 0, decRes := .unsupportedHeader }
  | .badTerminator => { s with decState := .hdr, decCnt := 0, decRes := .badTerminator }
  | .checksumMismatch => { s with decState := .hdr, decCnt := 0, decRes := .checksumMismatch }
  | .truncatedPayload => { clearRecord s with uRes := .truncatedPayload }
  | .schemaExhausted => { clearRecord s with uRes := .schemaExhausted }

/-- `raise E(info)` (R260): the entry above, (3) the `ERRLOG` bit, (4) the response; nothing else happens. -/
def raise (e : ProtoError) (info : Word) (s : State) : State :=
  let t := enterError e s
  answer e.status info [] { t with errlog := withLogBit e.logBit t.errlog }

/-! ### Reset (R281, R282) -/

/-- Every register at its reset value (R55). The buffers' bytes, the TX history and the parameters are untouched (R79, R33,
R281), and so are the model's own `port` and `draws`. -/
def resetBlock (s : State) : State :=
  { State.reset with
    rxbuf := s.rxbuf, ubuf := s.ubuf, txout := s.txout, rsp := s.rsp, emitted := s.emitted,
    port := s.port, draws := s.draws, cfg := s.cfg }

/-- The reset input, asserted between operations: the effect of `RESET` without a response (R282; log 14). -/
def resetInput (s : State) : State := { resetBlock s with rsp := none, emitted := [] }

/-! ### What the host presents (R10, R74) -/

/-- What the host presents next, with the state in which it is no longer waiting. -/
def takeEvent (s : State) : Option (PortEvent × State) :=
  match s.port with
  | [] => none
  | e :: rest => some (e, { s with port := rest })

/-- The state in which the host presents `e` next. -/
def present (e : PortEvent) (s : State) : State := { s with port := e :: s.port }

end Sys2Proof.Machine
end

