-- ==== Sys2Proof/Machine/Crc.lean ====
section
/-! DEFINITION. The checksum function (R120 to R122, R127) and the CRC unit: `CRC.CLR` (R124), `CRC.UPD` (R125). -/

namespace Sys2Proof.Machine

/-- One of the eight bit steps of R121: shift left, and if the bit shifted out of the top was 1, xor 0x1021. -/
def crcBit (r : Half) : Half :=
  if r.getLsbD 15 then (r <<< 1) ^^^ Config.crcPoly else r <<< 1

/-- `n` bit steps. -/
def crcBits : Nat → Half → Half
  | 0, r => r
  | n + 1, r => crcBits n (crcBit r)

/-- `crc_update(c, b)` (R121): the byte enters at the top of the register, then eight bit steps. -/
def crcUpdate (c : Half) (b : Byte) : Half := crcBits 8 (c ^^^ (b ++ 0#8))

/-- The register after the bytes of a sequence, in order, from the value `c`. -/
def crcFrom (c : Half) : List Byte → Half
  | [] => c
  | b :: bs => crcFrom (crcUpdate c b) bs

/-- `crc16(B)` (R122). -/
def crc16 (bytes : List Byte) : Half := crcFrom Config.crcInit bytes

/-- `CRC.CLR` (R124). -/
def execCrcClr (s : State) : Host.Outcome State Fault Refusal :=
  .next (answerOk 0 { s with crcAcc := Config.crcInit })

/-- `CRC.UPD b` (R125): the response carries the new value. -/
def execCrcUpd (b : Byte) (s : State) : Host.Outcome State Fault Refusal :=
  let c := crcUpdate s.crcAcc b
  .next (answerOk (zext16 c) { s with crcAcc := c })

end Sys2Proof.Machine
end

