-- ==== Sys2Proof/Machine/Encoder.lean ====
section
/-! DEFINITION. The frame encoder: the function `encode` (R141) and the unit's operations `ENC.START` (R143), `ENC.PUSH`
(R144), `ENC.ABORT` (R145). -/

namespace Sys2Proof.Machine

/-- The header and length bytes of a frame (R88, R89, R141). The comparison with 256 is the source's; the one length it
misplaces is refused before it gets here (R15). -/
def frameHead (len : Half) : List Byte :=
  if len.toNat ≤ Config.shortLimit then [Config.hdrShort, loByte len]
  else Config.hdrLong :: bytesOf16 len

/-- The checksum and terminator bytes of a frame (R92, R93). -/
def frameTail (c : Half) : List Byte := bytesOf16 c ++ [Config.term]

/-- `encode(P)` (R141): none for the length 256, which is refused, and for a length above 65535, which no length operand
holds. -/
def encodeFrame (payload : List Byte) : Option (List Byte) :=
  if payload.length = 256 ∨ Config.lenMax < payload.length then none
  else some (frameHead (BitVec.ofNat 16 payload.length) ++ payload ++ frameTail (crc16 payload))

/-- `respond(OK, d)` with emitted bytes, `d` their number (R86). -/
def answerEmit (bytes : List Byte) (s : State) : State := answer .ok (dataOf bytes.length) bytes s

/-- `ENC.START len` (R143). -/
def execEncStart (len : Half) (s : State) : Host.Outcome State Fault Refusal :=
  if s.encState ≠ .idle then .next (refuse .illegalState s)
  else if len = Config.lenRefused then .next (refuse .lengthUnrepresentable s)
  else if len = 0#16 then
    .next (answerEmit (frameHead len ++ frameTail Config.crcInit) { s with encCrc := Config.crcInit })
  else
    .next (answerEmit (frameHead len) { s with encCrc := Config.crcInit, encRem := len, encState := .pay })

/-- `ENC.PUSH b` (R144): the last payload byte brings the checksum and the terminator with it. -/
def execEncPush (b : Byte) (s : State) : Host.Outcome State Fault Refusal :=
  if s.encState ≠ .pay then .next (refuse .illegalState s)
  else
    let c := crcUpdate s.encCrc b
    if s.encRem = 1#16 then
      .next (answerEmit (b :: frameTail c) { s with encCrc := c, encRem := 0, encState := .idle })
    else
      .next (answerEmit [b] { s with encCrc := c, encRem := s.encRem - 1 })

/-- `ENC.ABORT` (R145): nothing is emitted and nothing already emitted is recalled. -/
def execEncAbort (s : State) : Host.Outcome State Fault Refusal :=
  .next (answerOk 0 { s with encState := .idle, encRem := 0, encCrc := 0 })

end Sys2Proof.Machine
end

