-- ==== Sys2Proof/Machine/System.lean ====
section
/-! DEFINITION. The system operations: `NOP` (R231), `RESET` (R232), `CSR.RD` (R233) with the twelve read-only registers of
R40 to R52. -/

namespace Sys2Proof.Machine

/-- The 32-bit value of control and status register `n`, none for an unassigned number (R40 to R52). Bits not assigned to a
field read 0. -/
def csrRead (n : Byte) (s : State) : Option Word :=
  match n.toNat with
  | 0x00 => some (zext16 s.crcAcc)
  | 0x01 => some (s.encRem ++ 0#15 ++ s.encState.code)
  | 0x02 => some (zext16 s.encCrc)
  | 0x03 => some (0#22 ++ s.decOff ++ s.decRes.code ++ 0#1 ++ s.decState.code)
  | 0x04 => some (s.decCnt.setWidth 32)
  | 0x05 => some (zext16 s.decL)
  | 0x06 => some (s.decCrcCalc ++ s.decCrcRecv)
  | 0x07 => some (s.ubufLen ++ 0#1 ++ s.uConsumed ++ 0#4 ++ s.uRes.code)
  | 0x08 => some s.uMask
  | 0x09 => some (s.uValid.setWidth 32)
  | 0x0A => some (dataOf s.uTs)
  | 0x0B => some s.errlog
  | _ => none

/-- `NOP` (R231). -/
def execNop (s : State) : Host.Outcome State Fault Refusal := .next (answerOk 0 s)

/-- `RESET` (R232). -/
def execReset (s : State) : Host.Outcome State Fault Refusal := .next (answerOk 0 (resetBlock s))

/-- `CSR.RD n` (R233): a read has no side effect. -/
def execCsrRd (n : Byte) (s : State) : Host.Outcome State Fault Refusal :=
  match csrRead n s with
  | some v => .next (answerOk v s)
  | none => .next (refuse .indexRange s)

end Sys2Proof.Machine
end

