-- ==== Sys2Proof/Machine/Decoder.lean ====
section
/-! DEFINITION. The frame decoder: its geometry (R161 to R163), its state machine `DEC.BYTE` (R164, R165), `DEC.RD` (R166),
`DEC.DROP` (R167), and the whole-frame function `decode_frame` (R175). -/

namespace Sys2Proof.Machine

/-- The total length of the frame in progress, `DEC_L + DEC_OFF + 3`, exact (R162, R179). -/
def frameTotal (s : State) : Nat := s.decL.toNat + s.decOff.toNat + 3

/-- Where the next received byte falls in the frame in progress (R90, R93). -/
def framePos (s : State) : FramePos :=
  match s.decState with
  | .hdr => .header
  | .acc => if s.decCnt.toNat + 1 < frameTotal s then .data else .terminator
  | _ => .data

/-- A byte of the frame in progress stored at index `a` of `RXBUF`. -/
def storeRx (a : Nat) (b : Byte) (s : State) : Option State :=
  (writeByte s.cfg.rxbufSize s.rxbuf a b).map fun m => { s with rxbuf := m }

/-- `respond(PENDING, n)`: the byte is stored and `DEC_CNT` is now `n` (R85, R165). -/
def answerPending (n : Nat) (s : State) : State :=
  answer .pending (dataOf n) [] { s with decCnt := BitVec.ofNat 17 n }

/-- The results and lengths of the attempt before, cleared when a header byte is taken (R165 case HDR, R46, R47). -/
def newAttempt (s : State) : State :=
  { s with decRes := .none, decL := 0, decCrcCalc := 0, decCrcRecv := 0 }

/-- Case HDR of R165. -/
def decHeader (b : Byte) (s : State) : Option State :=
  let s0 := newAttempt s
  if b = Config.hdrShort then
    (storeRx 0 b s0).map fun t => answerPending 1 { t with decOff := 2, decState := .len }
  else if b = Config.hdrLong ∧ s.cfg.longDecode = true then
    (storeRx 0 b s0).map fun t => answerPending 1 { t with decOff := 3, decState := .lenh }
  else
    some (raise .unsupportedHeader (zext8 b) s0)

/-- Case LEN of R165: the one length byte of the short form (R91). -/
def decLen (b : Byte) (s : State) : Option State :=
  (storeRx 1 b s).map fun t => answerPending 2 { t with decL := b.setWidth 16, decState := .acc }

/-- Case LENH of R165: the high length byte of the long form (R91). -/
def decLenHigh (b : Byte) (s : State) : Option State :=
  (storeRx 1 b s).map fun t => answerPending 2 { t with decL := b.setWidth 16 <<< 8, decState := .lenl }

/-- Case LENL of R165: the low length byte of the long form (R91). -/
def decLenLow (b : Byte) (s : State) : Option State :=
  (storeRx 2 b s).map fun t => answerPending 3 { t with decL := t.decL + b.setWidth 16, decState := .acc }

/-- The checksum check of a complete frame whose terminator is right: steps 4 and 5 of the source (R160, R165). -/
def decCheck (s : State) : Option State :=
  (readRun s.cfg.rxbufSize s.rxbuf s.decOff.toNat s.decL.toNat).bind fun payload =>
    (readHalf s.cfg.rxbufSize s.rxbuf (s.decOff.toNat + s.decL.toNat)).map fun recv =>
      let computed := crc16 payload
      let t := { s with decState := .hdr, decCnt := 0, decCrcCalc := computed, decCrcRecv := recv }
      if computed = recv then answer .frameOk (zext16 t.decL) [] { t with decRes := .ok }
      else raise .checksumMismatch (computed ++ recv) t

/-- The completing byte of a frame: terminator first, checksum second (R165, R259). -/
def decComplete (b : Byte) (s : State) : Option State :=
  if b = Config.term then decCheck s else some (raise .badTerminator (zext8 b) s)

/-- Case ACC of R165. The pseudocode's `else` takes every count that is not below the total (log 18). -/
def decAcc (b : Byte) (s : State) : Option State :=
  (storeRx s.decCnt.toNat b s).bind fun t =>
    if s.decCnt.toNat + 1 < frameTotal s then some (answerPending (s.decCnt.toNat + 1) t)
    else decComplete b t

/-- The decoder takes a byte (R165): every state accepts one. -/
def takeByte (b : Byte) (s : State) : Option State :=
  match s.decState with
  | .hdr => decHeader b s
  | .len => decLen b s
  | .lenh => decLenHigh b s
  | .lenl => decLenLow b s
  | .acc => decAcc b s

/-- `DEC.BYTE b` (R165). -/
def execDecByte (b : Byte) (s : State) : Host.Outcome State Fault Refusal := orFault (takeByte b s)

/-- `DEC.RD idx` (R166): `NO_DATA` is tested before `INDEX_RANGE`. -/
def execDecRd (idx : Half) (s : State) : Host.Outcome State Fault Refusal :=
  if s.decRes ≠ .ok then .next (refuse .noData s)
  else if s.decL ≤ idx then .next (refuse .indexRange s)
  else orFault ((readByte s.cfg.rxbufSize s.rxbuf (s.decOff.toNat + idx.toNat)).map fun b => answerOk (zext8 b) s)

/-- The decoder's registers at their reset values (R167). -/
def dropFrame (s : State) : State :=
  { s with decState := .hdr, decCnt := 0, decL := 0, decOff := 2, decRes := .none, decCrcCalc := 0, decCrcRecv := 0 }

/-- `DEC.DROP` (R167). -/
def execDecDrop (s : State) : Host.Outcome State Fault Refusal := .next (answerOk 0 (dropFrame s))

/-! ### A whole frame at once (R175) -/

/-- What a byte sequence fed from state HDR comes to (R175). Every case after `pending` says which bytes are left as a
new stream. -/
inductive FrameResult where
  /-- Of the empty sequence: no byte was given, so no response and no change. -/
  | nothing
  | pending
  | unsupportedHeader (b : Byte) (rest : List Byte)
  | badTerminator (b : Byte) (rest : List Byte)
  | checksumMismatch (computed recv : Half) (rest : List Byte)
  | frameOk (payload : List Byte) (rest : List Byte)
  deriving DecidableEq, Repr

/-- The judgement of R175 once the length field has been read: `off` and `len` give the geometry (R162), `f` is the whole
sequence from the header on. -/
def judgeFrame (off len : Nat) (f : List Byte) : FrameResult :=
  let total := len + off + 3
  if f.length < total then .pending
  else
    let rest := f.drop total
    let last := f.getD (total - 1) 0
    let payload := (f.drop off).take len
    let recv := be16 (f.getD (off + len) 0) (f.getD (off + len + 1) 0)
    if last ≠ Config.term then .badTerminator last rest
    else if crc16 payload ≠ recv then .checksumMismatch (crc16 payload) recv rest
    else .frameOk payload rest

/-- `decode_frame(F)` (R175), for a given `LONG_DECODE`. -/
def decodeFrame (long : Bool) (f : List Byte) : FrameResult :=
  match f with
  | [] => .nothing
  | h :: t =>
    if h = Config.hdrShort then
      match t with
      | l :: _ => judgeFrame 2 l.toNat f
      | [] => .pending
    else if h = Config.hdrLong ∧ long = true then
      match t with
      | l1 :: l0 :: _ => judgeFrame 3 (be16 l1 l0).toNat f
      | _ => .pending
    else .unsupportedHeader h t

end Sys2Proof.Machine
end

