-- ==== Sys2Proof/Machine/Schema.lean ====
section
/-! DEFINITION. The field schema (R190 to R196): the constant tables `WIDTH`, `SIGNED`, `OPAQUE`, the parameter `SCALE`, and
`SCH.RD` (R195). No operation writes the schema (R196). -/

namespace Sys2Proof.Machine

/-- What R191 gives for a slot: `WIDTH`, `SIGNED`, `OPAQUE`. -/
structure FieldSpec where
  width : Nat
  signed : Bool
  isOpaque : Bool
  deriving DecidableEq, Repr

/-- A 2-byte numeric slot (R191). -/
def numeric2 : FieldSpec := ⟨2, true, false⟩

/-- A 4-byte numeric slot (R191). -/
def numeric4 : FieldSpec := ⟨4, true, false⟩

/-- A 1-byte opaque slot (R191). -/
def opaque1 : FieldSpec := ⟨1, false, true⟩

/-- The schema ROM, slot by slot (R63, R191). -/
def schema : Vector FieldSpec 23 :=
  #v[numeric2, numeric2, numeric4, numeric4, numeric4, numeric4, numeric2, numeric4,
     numeric2, numeric4, numeric4, numeric4, numeric4, numeric4, numeric4, opaque1,
     numeric4, opaque1, numeric2, numeric2, numeric2, numeric4, numeric4]

/-- `WIDTH[i]` in bytes. -/
def width (i : Slot) : Nat := schema[i].width

/-- `SIGNED[i]`. -/
def isSigned (i : Slot) : Bool := schema[i].signed

/-- `OPAQUE[i]`. -/
def isOpaqueSlot (i : Slot) : Bool := schema[i].isOpaque

/-- `SCALE[i]` of the instance, none for an opaque slot (R193). -/
def scaleOf (c : Config) (i : Slot) : Option Nat := c.scale[i]

/-- The data of `SCH.RD` (R195): width in [2:0], signed in [3], opaque in [4], zero in [7:5], the scale in [31:8], 0 for an
opaque slot. -/
def schemaWord (c : Config) (i : Slot) : Word :=
  let scale : BitVec 24 := if isOpaqueSlot i then 0 else BitVec.ofNat 24 ((scaleOf c i).getD 0)
  scale ++ 0#3 ++ BitVec.ofBool (isOpaqueSlot i) ++ BitVec.ofBool (isSigned i) ++ BitVec.ofNat 3 (width i)

/-- The bytes of the slots below `bound` that a mask selects. -/
def selectedBytes (mask : Word) (bound : Nat) : Nat :=
  ((allSlots.filter fun j => hasBit mask j && decide (j.val < bound)).map width).sum

/-- `off(i, M)`: the offset of slot `i` in the payload of mask `M` (R100). -/
def offsetOf (i : Slot) (mask : Word) : Nat := selectedBytes mask i.val

/-- `need(M)`: the bytes a payload of mask `M` needs (R100). -/
def need (mask : Word) : Nat := selectedBytes mask 23

/-- The mask of the full decode, ones in all 23 defined positions (R215). -/
def fullMask : Word := 0x007FFFFF#32

/-- `SCH.RD slot` (R195). -/
def execSchRd (slot : BitVec 5) (s : State) : Host.Outcome State Fault Refusal :=
  match slotOf slot with
  | none => .next (refuse .indexRange s)
  | some i => .next (answerOk (schemaWord s.cfg i) s)

end Sys2Proof.Machine
end

