-- ==== Sys2Proof/Machine/Unpacker.lean ====
section
/-! DEFINITION. The selective unpacker: the function `unpack` (R202) with its inverse `pack` (R217), and the operations
`UNP.CLR` (R210), `UNP.PUSH` (R211), `UNP.RUN` (R212), `UNP.RD` (R213). -/

namespace Sys2Proof.Machine

/-- Where the walk over the schema stands (R202): the bytes consumed and the fields delivered so far. -/
structure Walk where
  off : Nat
  valid : BitVec 23
  raw : Vector Word 23
  deriving DecidableEq, Repr

/-- What `unpack` returns (R202). -/
inductive UnpackResult where
  | record (raw : Vector Word 23) (valid : BitVec 23) (consumed : Nat)
  | schemaExhausted (hi : BitVec 9)
  | truncatedPayload (slot : Slot) (remaining : Nat)
  deriving DecidableEq, Repr

/-- The raw value of slot `i` from its bytes at offset `o` of `payload`, as a 32-bit pattern: an opaque byte zero-extended
(R205), a 2-byte integer sign-extended (R203), a 4-byte integer as it is (R204). -/
def fieldRaw (i : Slot) (payload : List Byte) (o : Nat) : Word :=
  let at_ := fun k => payload.getD (o + k) 0
  if isOpaqueSlot i then zext8 (at_ 0)
  else if width i = 2 then sext16 (be16 (at_ 0) (at_ 1))
  else be32 (at_ 0) (at_ 1) (at_ 2) (at_ 3)

/-- One turn of the loop of R202: slot `i`, when the mask selects it, consumes the next `WIDTH[i]` bytes. On too few bytes
it answers the slot and what remained. -/
def walkSlot (payload : List Byte) (mask : Word) (i : Slot) (w : Walk) : Except (Slot × Nat) Walk :=
  if hasBit mask i then
    if payload.length - w.off < width i then .error (i, payload.length - w.off)
    else .ok { off := w.off + width i, valid := w.valid ||| (1#23 <<< i.val), raw := w.raw.set i (fieldRaw i payload w.off) }
  else .ok w

/-- The loop of R202 over the slots given, in order. -/
def walkSlots (payload : List Byte) (mask : Word) : List Slot → Walk → Except (Slot × Nat) Walk
  | [], w => .ok w
  | i :: is, w =>
    match walkSlot payload mask i w with
    | .error e => .error e
    | .ok w' => walkSlots payload mask is w'

/-- The walk before its first slot: nothing consumed, nothing present, every raw value 0. -/
def walkStart : Walk := { off := 0, valid := 0, raw := Vector.replicate 23 0 }

/-- `unpack(B, mask)` (R202): the reserved mask bits are judged before any byte is read (R209). -/
def unpack (payload : List Byte) (mask : Word) : UnpackResult :=
  if maskReserved mask ≠ 0#9 then .schemaExhausted (maskReserved mask)
  else
    match walkSlots payload mask allSlots walkStart with
    | .ok w => .record w.raw w.valid w.off
    | .error (i, remaining) => .truncatedPayload i remaining

/-- The bytes of one field value in its slot's width, big-endian two's complement, or the byte itself for an opaque slot
(R217). An integer outside the slot's range is reduced modulo the field's size: DESIGN CHOICE, the spec gives it no bytes
(log 23). -/
def fieldBytes (i : Slot) (v : Int) : List Byte :=
  if isOpaqueSlot i then [BitVec.ofInt 8 v]
  else if width i = 2 then bytesOf16 (BitVec.ofInt 16 v)
  else bytesOf32 (BitVec.ofInt 32 v)

/-- The range of a slot's values (R101, R217). -/
def fieldInRange (i : Slot) (v : Int) : Bool :=
  if isOpaqueSlot i then decide (0 ≤ v ∧ v ≤ 255)
  else if width i = 2 then decide (-32768 ≤ v ∧ v ≤ 32767)
  else decide (-2147483648 ≤ v ∧ v ≤ 2147483647)

/-- `pack(v, M)`: the selected fields' bytes in ascending slot order (R217, for in-range integers; log 23 for the others). -/
def pack (v : Vector Int 23) (mask : Word) : List Byte :=
  (allSlots.filter fun i => hasBit mask i).flatMap fun i => fieldBytes i v[i]

/-- The value of slot `i` in the held record, none where no record is held or the slot is absent: an absent field "carries
no value, not a default" (R28, I20). -/
def recordField (s : State) (i : Slot) : Option Word :=
  if s.uRes = .ok ∧ hasBit s.uValid i = true then some s.uRaw[i] else none

/-- The physical value of a present numeric slot, the exact rational raw / scale (R9, R207). -/
def physicalValue (s : State) (i : Slot) : Option Rat :=
  match recordField s i, scaleOf s.cfg i with
  | some raw, some d => some ((raw.toInt : Rat) / (d : Rat))
  | _, _ => none

/-- The bytes in the unpacker's buffer, `UBUF[0 .. UBUF_LEN)`. -/
def ubufBytes (s : State) : List Byte := s.ubuf.slice 0 s.ubufLen.toNat

/-- The unpacker's registers at their reset values (R210). -/
def clearUnpacker (s : State) : State :=
  { clearRecord s with ubufLen := 0, uMask := 0, uRes := .none }

/-- `UNP.CLR` (R210). -/
def execUnpClr (s : State) : Host.Outcome State Fault Refusal := .next (answerOk 0 (clearUnpacker s))

/-- `UNP.PUSH b` (R211): the response carries the new length. -/
def execUnpPush (b : Byte) (s : State) : Host.Outcome State Fault Refusal :=
  if s.ubufLen.toNat = s.cfg.ubufSize then .next (refuse .bufferFull s)
  else
    orFault ((writeByte s.cfg.ubufSize s.ubuf s.ubufLen.toNat b).map fun m =>
      let n := s.ubufLen + 1#16
      answerOk (zext16 n) { s with ubuf := m, ubufLen := n })

/-- A record held (R212): its timestamp is the next draw of the time source (R17, R218; log 8). -/
def holdRecord (raw : Vector Word 23) (valid : BitVec 23) (consumed : Nat) (s : State) : State :=
  answerOk (dataOf consumed)
    { s with uRaw := raw, uValid := valid, uConsumed := BitVec.ofNat 7 consumed,
             uTs := (Config.timeIn s.cfg.tsW s.draws).toNat, draws := s.draws + 1, uRes := .ok }

/-- The data of `TruncatedPayload` (R85, R251): the bytes that remained in [15:8], the slot in [4:0]. -/
def truncatedInfo (i : Slot) (remaining : Nat) : Word :=
  0#16 ++ BitVec.ofNat 8 remaining ++ 0#3 ++ BitVec.ofNat 5 i.val

/-- The effect of a result of `unpack` (R212), the mask already held. -/
def takeResult (r : UnpackResult) (s : State) : State :=
  match r with
  | .record raw valid consumed => holdRecord raw valid consumed s
  | .schemaExhausted hi => raise .schemaExhausted (hi.setWidth 32) s
  | .truncatedPayload i remaining => raise .truncatedPayload (truncatedInfo i remaining) s

/-- The unpacker run under a mask (R212). The payload is read only when the mask is legal (R209, R256). -/
def runMask (mask : Word) (s : State) : Option State :=
  let t := { s with uMask := mask }
  if maskReserved mask ≠ 0#9 then some (raise .schemaExhausted ((maskReserved mask).setWidth 32) t)
  else (readRun s.cfg.ubufSize s.ubuf 0 s.ubufLen.toNat).map fun payload => takeResult (unpack payload mask) t

/-- `UNP.RUN mask` (R212): every bit of `arg` is operand. -/
def execUnpRun (mask : Word) (s : State) : Host.Outcome State Fault Refusal := orFault (runMask mask s)

/-- `UNP.RD slot` (R213): `INDEX_RANGE` is tested before `NO_DATA`; `ABSENT` is a normal answer. -/
def execUnpRd (slot : BitVec 5) (s : State) : Host.Outcome State Fault Refusal :=
  match slotOf slot with
  | none => .next (refuse .indexRange s)
  | some i =>
    if s.uRes ≠ .ok then .next (refuse .noData s)
    else if hasBit s.uValid i = false then .next (answer .absent 0 [] s)
    else .next (answerOk s.uRaw[i] s)

end Sys2Proof.Machine
end

