-- ==== Sys2Proof/Machine/Wire.lean ====
section
/-! DEFINITION. The rows of the opcode table that are no operation of the command port (R107): a header or terminator byte of
the received stream reaches the block as `DEC.BYTE` (R65), a presence mask as the argument of `UNP.RUN` (R103). Each row has
the whole effect of the operation that carries its datum (log 1). -/

namespace Sys2Proof.Machine

/-- Row `FRAME.SHORT` (R88): the byte 0x02 that starts a short-form frame is given to the decoder. -/
def execFrameShort (s : State) : Host.Outcome State Fault Refusal := orFault (takeByte Config.hdrShort s)

/-- Row `FRAME.LONG` (R89, R96): the byte 0x03 that starts a long-form frame is given to the decoder. -/
def execFrameLong (s : State) : Host.Outcome State Fault Refusal := orFault (takeByte Config.hdrLong s)

/-- Row `FRAME.TERMINATOR` (R93, R97): the byte 0x03 that ends a frame is given to the decoder. -/
def execFrameTerminator (s : State) : Host.Outcome State Fault Refusal := orFault (takeByte Config.term s)

/-- The unpacker run under the mask that selects slot `i` alone (R107, R202). -/
def runSlot (i : Slot) (s : State) : Host.Outcome State Fault Refusal := orFault (runMask (slotMask i) s)

/-- Row `FIELD.0` (R203): the presence mask 0x1. -/
def execField0 (s : State) : Host.Outcome State Fault Refusal := runSlot 0 s

/-- Row `FIELD.1` (R203): the presence mask 0x2. -/
def execField1 (s : State) : Host.Outcome State Fault Refusal := runSlot 1 s

/-- Row `FIELD.2` (R204): the presence mask 0x4. -/
def execField2 (s : State) : Host.Outcome State Fault Refusal := runSlot 2 s

/-- Row `FIELD.3` (R204): the presence mask 0x8. -/
def execField3 (s : State) : Host.Outcome State Fault Refusal := runSlot 3 s

/-- Row `FIELD.4` (R204): the presence mask 0x10. -/
def execField4 (s : State) : Host.Outcome State Fault Refusal := runSlot 4 s

/-- Row `FIELD.5` (R204): the presence mask 0x20. -/
def execField5 (s : State) : Host.Outcome State Fault Refusal := runSlot 5 s

/-- Row `FIELD.6` (R203): the presence mask 0x40. -/
def execField6 (s : State) : Host.Outcome State Fault Refusal := runSlot 6 s

/-- Row `FIELD.7` (R204): the presence mask 0x80. -/
def execField7 (s : State) : Host.Outcome State Fault Refusal := runSlot 7 s

/-- Row `FIELD.8` (R203): the presence mask 0x100. -/
def execField8 (s : State) : Host.Outcome State Fault Refusal := runSlot 8 s

/-- Row `FIELD.9` (R204): the presence mask 0x200. -/
def execField9 (s : State) : Host.Outcome State Fault Refusal := runSlot 9 s

/-- Row `FIELD.10` (R204): the presence mask 0x400. -/
def execField10 (s : State) : Host.Outcome State Fault Refusal := runSlot 10 s

/-- Row `FIELD.11` (R204): the presence mask 0x800. -/
def execField11 (s : State) : Host.Outcome State Fault Refusal := runSlot 11 s

/-- Row `FIELD.12` (R204): the presence mask 0x1000. -/
def execField12 (s : State) : Host.Outcome State Fault Refusal := runSlot 12 s

/-- Row `FIELD.13` (R204): the presence mask 0x2000. -/
def execField13 (s : State) : Host.Outcome State Fault Refusal := runSlot 13 s

/-- Row `FIELD.14` (R204): the presence mask 0x4000. -/
def execField14 (s : State) : Host.Outcome State Fault Refusal := runSlot 14 s

/-- Row `FIELD.15` (R205): the presence mask 0x8000. -/
def execField15 (s : State) : Host.Outcome State Fault Refusal := runSlot 15 s

/-- Row `FIELD.16` (R204): the presence mask 0x10000. -/
def execField16 (s : State) : Host.Outcome State Fault Refusal := runSlot 16 s

/-- Row `FIELD.17` (R205): the presence mask 0x20000. -/
def execField17 (s : State) : Host.Outcome State Fault Refusal := runSlot 17 s

/-- Row `FIELD.18` (R203): the presence mask 0x40000. -/
def execField18 (s : State) : Host.Outcome State Fault Refusal := runSlot 18 s

/-- Row `FIELD.19` (R203): the presence mask 0x80000. -/
def execField19 (s : State) : Host.Outcome State Fault Refusal := runSlot 19 s

/-- Row `FIELD.20` (R203): the presence mask 0x100000. -/
def execField20 (s : State) : Host.Outcome State Fault Refusal := runSlot 20 s

/-- Row `FIELD.21` (R204): the presence mask 0x200000. -/
def execField21 (s : State) : Host.Outcome State Fault Refusal := runSlot 21 s

/-- Row `FIELD.22` (R204): the presence mask 0x400000. -/
def execField22 (s : State) : Host.Outcome State Fault Refusal := runSlot 22 s

/-- Row `FIELD.RESERVED` (R98, R209): the unpacker run under a mask given whole. With a reserved bit set it is
`SchemaExhausted`; otherwise the mask is legal and the run goes on. -/
def execFieldReserved (m : Word) (s : State) : Host.Outcome State Fault Refusal := orFault (runMask m s)

end Sys2Proof.Machine
end

