-- ==== Sys2Proof/Machine/Dispatch.lean ====
section
/-! DEFINITION. The meaning of every instruction, one arm per constructor, in the order of spec/opcode_table.json. -/

namespace Sys2Proof.Machine

/-- What an instruction does (R10: one atomic step). -/
def exec (i : Instr) (s : State) : Host.Outcome State Fault Refusal :=
  match i with
  | .nop => Sys2Proof.Machine.execNop s
  | .reset => Sys2Proof.Machine.execReset s
  | .csrRd n => Sys2Proof.Machine.execCsrRd n s
  | .crcClr => Sys2Proof.Machine.execCrcClr s
  | .crcUpd b => Sys2Proof.Machine.execCrcUpd b s
  | .encStart len => Sys2Proof.Machine.execEncStart len s
  | .encPush b => Sys2Proof.Machine.execEncPush b s
  | .encAbort => Sys2Proof.Machine.execEncAbort s
  | .decByte b => Sys2Proof.Machine.execDecByte b s
  | .decRd idx => Sys2Proof.Machine.execDecRd idx s
  | .decDrop => Sys2Proof.Machine.execDecDrop s
  | .unpClr => Sys2Proof.Machine.execUnpClr s
  | .unpPush b => Sys2Proof.Machine.execUnpPush b s
  | .unpRun mask => Sys2Proof.Machine.execUnpRun mask s
  | .unpRd slot => Sys2Proof.Machine.execUnpRd slot s
  | .schRd slot => Sys2Proof.Machine.execSchRd slot s
  | .frameShort => Sys2Proof.Machine.execFrameShort s
  | .frameLong => Sys2Proof.Machine.execFrameLong s
  | .frameTerminator => Sys2Proof.Machine.execFrameTerminator s
  | .field0 => Sys2Proof.Machine.execField0 s
  | .field1 => Sys2Proof.Machine.execField1 s
  | .field2 => Sys2Proof.Machine.execField2 s
  | .field3 => Sys2Proof.Machine.execField3 s
  | .field4 => Sys2Proof.Machine.execField4 s
  | .field5 => Sys2Proof.Machine.execField5 s
  | .field6 => Sys2Proof.Machine.execField6 s
  | .field7 => Sys2Proof.Machine.execField7 s
  | .field8 => Sys2Proof.Machine.execField8 s
  | .field9 => Sys2Proof.Machine.execField9 s
  | .field10 => Sys2Proof.Machine.execField10 s
  | .field11 => Sys2Proof.Machine.execField11 s
  | .field12 => Sys2Proof.Machine.execField12 s
  | .field13 => Sys2Proof.Machine.execField13 s
  | .field14 => Sys2Proof.Machine.execField14 s
  | .field15 => Sys2Proof.Machine.execField15 s
  | .field16 => Sys2Proof.Machine.execField16 s
  | .field17 => Sys2Proof.Machine.execField17 s
  | .field18 => Sys2Proof.Machine.execField18 s
  | .field19 => Sys2Proof.Machine.execField19 s
  | .field20 => Sys2Proof.Machine.execField20 s
  | .field21 => Sys2Proof.Machine.execField21 s
  | .field22 => Sys2Proof.Machine.execField22 s
  | .fieldReserved m => Sys2Proof.Machine.execFieldReserved m s

end Sys2Proof.Machine
end

