-- ==== Sys2Proof/Machine/Step.lean ====
section
/-! DEFINITION. One step of the machine. The block fetches nothing (R24): it performs what the host presents next, and with
nothing presented nothing changes (R10; log 4). -/

namespace Sys2Proof.Machine

/-- An item the host presents: the instruction it decodes to is executed; a command word that is no operation is refused with
`ILLEGAL_OP` (R82, R99; log 19). -/
def runItem (h : HostItem) (s : State) : Host.Outcome State Fault Refusal :=
  match decode (framePos s) h with
  | .ok i => exec i s
  | .error _ => .next (refuse .illegalOp s)

/-- What happens at the block's edge: an item, or the reset input (R282). -/
def runEvent (e : PortEvent) (s : State) : Host.Outcome State Fault Refusal :=
  match e with
  | .item h => runItem h s
  | .resetInput => .next (resetInput s)

/-- One step: the next event is taken from the port and performed (R74). -/
def step (s : State) : Host.Outcome State Fault Refusal :=
  match takeEvent s with
  | none => .next s
  | some (e, t) => runEvent e t

/-- The state in which the host presents the instruction of a table row's word next (log 4). -/
def State.withFetchWord (s : State) (nbits w : Nat) : State := present (.item (tableItem nbits w)) s

end Sys2Proof.Machine
end

