-- ==== Sys2Proof/Machine/Pseudo.lean ====
section
/-! DEFINITION. Sequences of operations: the pseudo-operations of R106, the assembler's spelling of an operation (R105), and
the payloads of the two commands the boundary component describes (R241, R242). None of it adds state or behaviour to the
block. -/

namespace Sys2Proof.Machine

/-- The operations in order, with the responses they return; none when the model stops (log 10). An operation that is refused
or reports an error does not end the sequence (R106). -/
def execAll : List Instr → State → Option (State × List Response)
  | [], s => some (s, [])
  | i :: is, s =>
    match exec i s with
    | .next t => (execAll is t).map fun r => (r.1, t.rsp.toList ++ r.2)
    | _ => none

/-- `ENC.FRAME P` (R106), for a payload of at most 65535 bytes. DESIGN CHOICE beyond that, where R141 says that the payload
cannot be expressed: the length operand is `len(P)` modulo 2^16, so that 65536 bytes give `ENC.START 0` (log 22). -/
def encFrameOps (payload : List Byte) : List Instr :=
  .encStart (BitVec.ofNat 16 payload.length) :: payload.map .encPush

/-- `DEC.FEED F` (R106). -/
def decFeedOps (f : List Byte) : List Instr := f.map .decByte

/-- `CRC.RD` (R106, R126). -/
def crcRdOps : List Instr := [.csrRd 0x00]

/-- `CRC.COMPUTE B` (R106). -/
def crcComputeOps (bytes : List Byte) : List Instr := .crcClr :: bytes.map .crcUpd ++ crcRdOps

/-- `DEC.PAYLOAD` (R106), `len` being what its `CSR.RD 0x05` gives. -/
def decPayloadOps (len : Nat) : List Instr :=
  .csrRd 0x05 :: (List.range len).map fun i => .decRd (BitVec.ofNat 16 i)

/-- `UNP.DECODE B, mask` (R106). -/
def unpDecodeOps (payload : List Byte) (mask : Word) : List Instr :=
  .unpClr :: payload.map .unpPush ++ [.unpRun mask]

/-- `UNP.FULL B` (R106, R215). -/
def unpFullOps (payload : List Byte) : List Instr := unpDecodeOps payload fullMask

/-- `UNP.RECORD` (R106). -/
def unpRecordOps : List Instr :=
  .csrRd 0x09 :: (allSlots.map fun i => .unpRd (BitVec.ofNat 5 i.val)) ++ [.csrRd 0x0A]

/-- The mnemonic of an instruction (R105), and for the rows that are no operation their name in the opcode table. -/
def mnemonic : Instr → String
  | .nop => "NOP"
  | .reset => "RESET"
  | .csrRd _ => "CSR.RD"
  | .crcClr => "CRC.CLR"
  | .crcUpd _ => "CRC.UPD"
  | .encStart _ => "ENC.START"
  | .encPush _ => "ENC.PUSH"
  | .encAbort => "ENC.ABORT"
  | .decByte _ => "DEC.BYTE"
  | .decRd _ => "DEC.RD"
  | .decDrop => "DEC.DROP"
  | .unpClr => "UNP.CLR"
  | .unpPush _ => "UNP.PUSH"
  | .unpRun _ => "UNP.RUN"
  | .unpRd _ => "UNP.RD"
  | .schRd _ => "SCH.RD"
  | .frameShort => "FRAME.SHORT"
  | .frameLong => "FRAME.LONG"
  | .frameTerminator => "FRAME.TERMINATOR"
  | .field0 => "FIELD.0"
  | .field1 => "FIELD.1"
  | .field2 => "FIELD.2"
  | .field3 => "FIELD.3"
  | .field4 => "FIELD.4"
  | .field5 => "FIELD.5"
  | .field6 => "FIELD.6"
  | .field7 => "FIELD.7"
  | .field8 => "FIELD.8"
  | .field9 => "FIELD.9"
  | .field10 => "FIELD.10"
  | .field11 => "FIELD.11"
  | .field12 => "FIELD.12"
  | .field13 => "FIELD.13"
  | .field14 => "FIELD.14"
  | .field15 => "FIELD.15"
  | .field16 => "FIELD.16"
  | .field17 => "FIELD.17"
  | .field18 => "FIELD.18"
  | .field19 => "FIELD.19"
  | .field20 => "FIELD.20"
  | .field21 => "FIELD.21"
  | .field22 => "FIELD.22"
  | .fieldReserved _ => "FIELD.RESERVED"

/-- The operand the assembler writes after the mnemonic, none when there is none (R105). -/
def operand : Instr → Option Nat
  | .csrRd n => some n.toNat
  | .crcUpd b | .encPush b | .decByte b | .unpPush b => some b.toNat
  | .encStart x | .decRd x => some x.toNat
  | .unpRun m | .fieldReserved m => some m.toNat
  | .unpRd x | .schRd x => some x.toNat
  | _ => none

/-- A line of the assembler: the mnemonic followed by at most one operand (R105). -/
def asmLine (i : Instr) : String :=
  match operand i with
  | some n => mnemonic i ++ " " ++ toString n
  | none => mnemonic i

/-- The payload of a selective telemetry request: the opcode, then the mask, most significant byte first (R103, R241). No
opcode value is in the spec (R245): it is an argument. -/
def telemetryRequest (opcode : Byte) (mask : Word) : List Byte := opcode :: bytesOf32 mask

/-- The payload of a duty-cycle command: the opcode, then the duty fraction times 1000 as a 32-bit two's-complement integer,
most significant byte first (R242). DESIGN CHOICE for an integer outside the signed 32-bit range, for which the spec does not
say what is sent: it is reduced modulo 2^32 (log 23). -/
def dutyCommand (opcode : Byte) (thousandths : Int) : List Byte := opcode :: bytesOf32 (BitVec.ofInt 32 thousandths)

end Sys2Proof.Machine
end

