-- ==== Sys2Proof/Safety.lean ====
section
/-! DEFINITION. What counts as a good state and a safe run, in the terms the statements use: the invariants of R56 with the
register facts of R31, R46 and R47 and the canonical form of the buffers, the outcomes R273 allows, and reachability. -/

namespace Sys2Proof.Machine

/-- R56 item 1. -/
abbrev EncCounts (s : State) : Prop :=
  (s.encState = .idle → s.encRem = 0) ∧ (s.encState = .pay → 1 ≤ s.encRem.toNat)

/-- R56 item 2. -/
abbrev DecCounts (s : State) : Prop :=
  (s.decState = .hdr → s.decCnt = 0) ∧ (s.decState = .len → s.decCnt = 1) ∧ (s.decState = .lenh → s.decCnt = 1)
    ∧ (s.decState = .lenl → s.decCnt = 2)
    ∧ (s.decState = .acc → s.decOff.toNat ≤ s.decCnt.toNat ∧ s.decCnt.toNat < frameTotal s)

/-- R56 item 3. -/
abbrev LongOnlyWhenConfigured (s : State) : Prop :=
  s.decState = .lenh ∨ s.decState = .lenl ∨ s.decOff = 3 → s.cfg.longDecode = true

/-- R56 item 4. -/
abbrev ResultOnlyInHdr (s : State) : Prop := s.decRes ≠ .none → s.decState = .hdr

/-- R56 item 5. -/
abbrev FrameHeld (s : State) : Prop :=
  s.decRes = .ok →
    s.decCrcCalc = s.decCrcRecv ∧ s.decCrcCalc = crc16 (s.rxbuf.slice s.decOff.toNat s.decL.toNat)
      ∧ (s.decOff = 2 ∧ s.rxbuf.read 0 = 0x02#8 ∨ s.decOff = 3 ∧ s.rxbuf.read 0 = 0x03#8)
      ∧ s.rxbuf.read (s.decL.toNat + s.decOff.toNat + 2) = 0x03#8

/-- R56 item 6. -/
abbrev UbufBounded (s : State) : Prop := s.ubufLen.toNat ≤ s.cfg.ubufSize

/-- R56 item 7. -/
abbrev RecordHeld (s : State) : Prop :=
  s.uRes = .ok →
    maskReserved s.uMask = 0 ∧ s.uValid = maskSlots s.uMask ∧ s.uConsumed.toNat = need s.uMask
      ∧ s.uConsumed.toNat ≤ s.ubufLen.toNat

/-- R56 item 8. -/
abbrev NoPartialRecord (s : State) : Prop :=
  s.uRes ≠ .ok → s.uValid = 0 ∧ (∀ i : Slot, s.uRaw[i] = 0) ∧ s.uConsumed = 0 ∧ s.uTs = 0

/-- R56 item 9. -/
abbrev AbsentIsZero (s : State) : Prop := ∀ i : Slot, hasBit s.uValid i = false → s.uRaw[i] = 0

/-- R56 item 10: a 2-byte numeric slot is sign-extended, an opaque one zero-extended. -/
abbrev RawExtended (s : State) : Prop :=
  ∀ i : Slot, hasBit s.uValid i = true →
    (isOpaqueSlot i = false ∧ width i = 2 → s.uRaw[i] = sext16 ((s.uRaw[i]).setWidth 16))
      ∧ (isOpaqueSlot i = true → s.uRaw[i] = zext8 ((s.uRaw[i]).setWidth 8))

/-- What R23, R46 and R165 say of the frame's geometry while and after it is taken in: `DEC_OFF` is 2 or 3 and goes with the
form, a short-form length fits a byte, the length field fills up from 0, and the header byte is in `RXBUF`. -/
abbrev Geometry (s : State) : Prop :=
  (s.decOff = 2 ∨ s.decOff = 3) ∧ (s.decOff = 2 → s.decL.toNat ≤ 255)
    ∧ (s.decState = .len → s.decOff = 2 ∧ s.decL = 0) ∧ (s.decState = .lenh → s.decOff = 3 ∧ s.decL = 0)
    ∧ (s.decState = .lenl → s.decOff = 3 ∧ loByte s.decL = 0)
    ∧ (s.decState ≠ .hdr → s.decOff = 2 ∧ s.rxbuf.read 0 = 0x02#8 ∨ s.decOff = 3 ∧ s.rxbuf.read 0 = 0x03#8)

/-- R47, and R252 on `DEC_L`: the checksum registers are 0 unless a checksum was compared, and differ after a mismatch. -/
abbrev Diagnostics (s : State) : Prop :=
  (s.decRes ≠ .ok ∧ s.decRes ≠ .checksumMismatch → s.decCrcCalc = 0 ∧ s.decCrcRecv = 0)
    ∧ (s.decRes = .checksumMismatch → s.decCrcCalc ≠ s.decCrcRecv)
    ∧ (s.decRes = .unsupportedHeader → s.decL = 0)

/-- R31: bits 5 to 7 and 14 to 31 of `ERRLOG` are always 0. -/
abbrev LogBitsAssigned (s : State) : Prop := s.errlog &&& 0xFFFFC0E0#32 = 0

/-- R27: `U_TS` is a value of `TS_W` bits. -/
abbrev TimestampFits (s : State) : Prop := s.uTs < 2 ^ s.cfg.tsW

/-- Both buffers in canonical form and within their sizes (R60, R72). -/
abbrev BuffersCanonical (s : State) : Prop :=
  s.rxbuf.wf = true ∧ s.ubuf.wf = true ∧ (∀ c ∈ s.rxbuf, c.1 < s.cfg.rxbufSize) ∧ (∀ c ∈ s.ubuf, c.1 < s.cfg.ubufSize)

/-- The invariant of the machine (R56 items 1 to 10 and the facts above), for a configuration R13 and R193 allow. -/
structure Inv (s : State) : Prop where
  cfgOk : s.cfg.ok = true
  encCounts : EncCounts s
  decCounts : DecCounts s
  longOnlyWhenConfigured : LongOnlyWhenConfigured s
  resultOnlyInHdr : ResultOnlyInHdr s
  frameHeld : FrameHeld s
  ubufBounded : UbufBounded s
  recordHeld : RecordHeld s
  noPartialRecord : NoPartialRecord s
  absentIsZero : AbsentIsZero s
  rawExtended : RawExtended s
  geometry : Geometry s
  diagnostics : Diagnostics s
  logBitsAssigned : LogBitsAssigned s
  timestampFits : TimestampFits s
  buffersCanonical : BuffersCanonical s

/-- The part of the state that R20 and R33 give the block: everything but the outputs of the last step and the model's own
fields. -/
abbrev SameBlock (s t : State) : Prop :=
  t.crcAcc = s.crcAcc ∧ t.encState = s.encState ∧ t.encRem = s.encRem ∧ t.encCrc = s.encCrc
    ∧ t.decState = s.decState ∧ t.decCnt = s.decCnt ∧ t.decL = s.decL ∧ t.decOff = s.decOff ∧ t.decRes = s.decRes
    ∧ t.decCrcCalc = s.decCrcCalc ∧ t.decCrcRecv = s.decCrcRecv ∧ t.rxbuf = s.rxbuf
    ∧ t.ubuf = s.ubuf ∧ t.ubufLen = s.ubufLen ∧ t.uMask = s.uMask ∧ t.uRes = s.uRes ∧ t.uValid = s.uValid
    ∧ t.uRaw = s.uRaw ∧ t.uConsumed = s.uConsumed ∧ t.uTs = s.uTs ∧ t.errlog = s.errlog ∧ t.txout = s.txout

/-- The registers of the CRC unit are the same (R271). -/
abbrev SameCrcUnit (s t : State) : Prop := t.crcAcc = s.crcAcc

/-- The registers of the encoder are the same (R271). -/
abbrev SameEncUnit (s t : State) : Prop := t.encState = s.encState ∧ t.encRem = s.encRem ∧ t.encCrc = s.encCrc

/-- The registers and the buffer of the decoder are the same (R271). -/
abbrev SameDecUnit (s t : State) : Prop :=
  t.decState = s.decState ∧ t.decCnt = s.decCnt ∧ t.decL = s.decL ∧ t.decOff = s.decOff ∧ t.decRes = s.decRes
    ∧ t.decCrcCalc = s.decCrcCalc ∧ t.decCrcRecv = s.decCrcRecv ∧ t.rxbuf = s.rxbuf

/-- The registers and the buffer of the unpacker, and the number of timestamps drawn, are the same (R271). -/
abbrev SameUnpUnit (s t : State) : Prop :=
  t.ubuf = s.ubuf ∧ t.ubufLen = s.ubufLen ∧ t.uMask = s.uMask ∧ t.uRes = s.uRes ∧ t.uValid = s.uValid
    ∧ t.uRaw = s.uRaw ∧ t.uConsumed = s.uConsumed ∧ t.uTs = s.uTs ∧ t.draws = s.draws

/-- The unit an instruction belongs to (R81); a FRAME row is the decoder's, a FIELD row the unpacker's. -/
inductive BlockUnit where
  | sys
  | crc
  | enc
  | dec
  | unp
  | sch
  deriving DecidableEq, Repr

/-- The unit column of R81. -/
def unitOf : Instr → BlockUnit
  | .nop | .reset | .csrRd _ => .sys
  | .crcClr | .crcUpd _ => .crc
  | .encStart _ | .encPush _ | .encAbort => .enc
  | .decByte _ | .decRd _ | .decDrop | .frameShort | .frameLong | .frameTerminator => .dec
  | .schRd _ => .sch
  | .unpClr | .unpPush _ | .unpRun _ | .unpRd _ => .unp
  | .field0 | .field1 | .field2 | .field3 | .field4 | .field5 | .field6 | .field7 | .field8 | .field9 | .field10
  | .field11 | .field12 | .field13 | .field14 | .field15 | .field16 | .field17 | .field18 | .field19 | .field20
  | .field21 | .field22 | .fieldReserved _ => .unp

/-- The statuses an instruction may answer, `ILLEGAL_OP` apart, which only decoding answers (R273). -/
def allowedStatuses : Instr → List Status
  | .nop | .reset | .crcClr | .crcUpd _ | .encAbort | .decDrop | .unpClr => [.ok]
  | .csrRd _ | .schRd _ => [.ok, .indexRange]
  | .encStart _ => [.ok, .illegalState, .lengthUnrepresentable]
  | .encPush _ => [.ok, .illegalState]
  | .decByte _ | .frameShort | .frameLong | .frameTerminator =>
    [.pending, .frameOk, .unsupportedHeader, .badTerminator, .checksumMismatch]
  | .decRd _ => [.ok, .noData, .indexRange]
  | .unpPush _ => [.ok, .bufferFull]
  | .unpRd _ => [.ok, .absent, .indexRange, .noData]
  | .unpRun _ | .field0 | .field1 | .field2 | .field3 | .field4 | .field5 | .field6 | .field7 | .field8 | .field9
  | .field10 | .field11 | .field12 | .field13 | .field14 | .field15 | .field16 | .field17 | .field18 | .field19
  | .field20 | .field21 | .field22 | .fieldReserved _ => [.ok, .schemaExhausted, .truncatedPayload]

/-- The instruction of row `FIELD.i`. -/
def fieldInstr (i : Slot) : Instr := decodeMask (slotMask i)

/-- The states some run of operations and reset inputs reaches from reset, for any allowed configuration: what the host
presents is chosen anew before every step. -/
inductive Reachable : State → Prop where
  | reset (c : Config) (h : c.ok = true) : Reachable { State.reset with cfg := c }
  | step (s t : State) (e : PortEvent) (h : Reachable s) (hs : step (present e s) = .next t) : Reachable t

end Sys2Proof.Machine
end

