-- ==== Sys2Proof/Certificates/Slice0/Obligations.lean ====
section
/-! DEFINITION. The statements about the machine, each a `def Obligations.<Name> : Prop`. What an outcome looks like is
spelled here field by field and not by the machine's own shared operations, so that a wrong shared operation makes a statement
false. An equation `exec i s = .next { s with … }` says at once that the instruction completes, what it changes and that it
changes nothing else. -/

namespace Sys2Proof.Spec

open Sys2Proof.Machine

/-- The response `{st, d}` with nothing emitted, every field of the block as in `s` (R84). -/
def answered (st : Status) (d : Word) (s : State) : State := { s with rsp := some ⟨st, d⟩, emitted := [] }

/-- The response of an outcome that sets `ERRLOG` bit `bit` (R31): a refusal with data 0 (R258), or an error with its detail
(R251). -/
def logged (st : Status) (bit : Nat) (d : Word) (s : State) : State :=
  { s with errlog := s.errlog ||| (1#32 <<< bit), rsp := some ⟨st, d⟩, emitted := [] }

/-- `OK` with these bytes appended to the TX stream and handed over, the data being their number (R86). -/
def emitting (bytes : List Byte) (s : State) : State :=
  { s with rsp := some ⟨.ok, BitVec.ofNat 32 bytes.length⟩, emitted := bytes, txout := s.txout ++ bytes }

/-- Presenting a command word whose operation code is `op` (R80 to R82): with a reserved bit set, `ILLEGAL_OP`; otherwise the
operation with its operand, the low `k` bits of the argument. (That the host's next word stands in a field of the state is the
model's way to present it, log 4.) -/
def PortLine (op : BitVec 8) (k : Nat) (mk : Word → Instr) : Prop :=
  ∀ (arg : Word) (s : State),
    step (present (.item (.cmd (op ++ arg))) s)
      = if arg.toNat < 2 ^ k then exec (mk arg) s else .next (logged .illegalOp 8 0 s)

/-- `ENC_STATE` as R24 and R42 number it. -/
def encStateNumber : EncState → Nat
  | .idle => 0
  | .pay => 1

/-- `DEC_STATE` as R24 and R44 number it. -/
def decStateNumber : DecState → Nat
  | .hdr => 0
  | .len => 1
  | .lenh => 2
  | .lenl => 3
  | .acc => 4

/-- `DEC_RES` as R29 numbers it. -/
def decResNumber : DecRes → Nat
  | .none => 0
  | .ok => 1
  | .unsupportedHeader => 2
  | .badTerminator => 3
  | .checksumMismatch => 4

/-- `U_RES` as R30 numbers it. -/
def uResNumber : URes → Nat
  | .none => 0
  | .ok => 1
  | .truncatedPayload => 2
  | .schemaExhausted => 3

/-- The status codes of R85. -/
def statusNumber : Status → Nat
  | .ok => 0x00
  | .pending => 0x01
  | .frameOk => 0x02
  | .absent => 0x03
  | .unsupportedHeader => 0x10
  | .badTerminator => 0x11
  | .checksumMismatch => 0x12
  | .truncatedPayload => 0x20
  | .schemaExhausted => 0x21
  | .illegalOp => 0x30
  | .illegalState => 0x31
  | .lengthUnrepresentable => 0x32
  | .bufferFull => 0x33
  | .indexRange => 0x34
  | .noData => 0x35

/-- The sixteen rows of R81: code, operand bits, instruction. -/
def cmdRows : List (BitVec 8 × Nat × (Word → Instr)) :=
  [(0x00, 0, fun _ => .nop), (0x01, 0, fun _ => .reset), (0x02, 8, fun a => .csrRd (a.setWidth 8)),
   (0x10, 0, fun _ => .crcClr), (0x11, 8, fun a => .crcUpd (a.setWidth 8)),
   (0x20, 16, fun a => .encStart (a.setWidth 16)), (0x21, 8, fun a => .encPush (a.setWidth 8)),
   (0x22, 0, fun _ => .encAbort), (0x30, 8, fun a => .decByte (a.setWidth 8)),
   (0x31, 16, fun a => .decRd (a.setWidth 16)), (0x32, 0, fun _ => .decDrop), (0x40, 0, fun _ => .unpClr),
   (0x41, 8, fun a => .unpPush (a.setWidth 8)), (0x42, 32, fun a => .unpRun a),
   (0x43, 5, fun a => .unpRd (a.setWidth 5)), (0x44, 5, fun a => .schRd (a.setWidth 5))]

/-- `WIDTH` as R191 lists it. -/
def widths : Vector Nat 23 := #v[2, 2, 4, 4, 4, 4, 2, 4, 2, 4, 4, 4, 4, 4, 4, 1, 4, 1, 2, 2, 2, 4, 4]

/-- The rows `FIELD.0` to `FIELD.22`. -/
def fieldTable : List (Slot × Instr) :=
  [(0, .field0), (1, .field1), (2, .field2), (3, .field3), (4, .field4), (5, .field5), (6, .field6), (7, .field7),
   (8, .field8), (9, .field9), (10, .field10), (11, .field11), (12, .field12), (13, .field13), (14, .field14),
   (15, .field15), (16, .field16), (17, .field17), (18, .field18), (19, .field19), (20, .field20), (21, .field21),
   (22, .field22)]

/-- The instructions that run the unpacker: `UNP.RUN` and the FIELD rows that stand for it (R103, log 1). -/
abbrev runsUnpacker (i : Instr) : Prop :=
  (∃ m, i = .unpRun m) ∨ i ∈ fieldTable.map (·.2) ∨ ∃ m, i = .fieldReserved m

/-- The raw value of slot `i` whose bytes start at index 0 of `UBUF` (R203 to R205). -/
def firstField (i : Slot) (m : Memory) : Word :=
  if widths[i] = 1 then BitVec.ofNat 32 (m.read 0).toNat
  else if widths[i] = 2 then
    (BitVec.ofNat 16 ((m.read 0).toNat * 256 + (m.read 1).toNat)).signExtend 32
  else
    BitVec.ofNat 32 ((((m.read 0).toNat * 256 + (m.read 1).toNat) * 256 + (m.read 2).toNat) * 256 + (m.read 3).toNat)

/-- The slots a mask selects, ascending (R98, R100). -/
def present (mask : Word) : List Slot := (List.finRange 23).filter fun i => mask.getLsbD i.val

/-- The responses of `n` bytes taken without completing a frame: `PENDING` with the count (R85, R165). -/
def pendings (n : Nat) : List Response := (List.range n).map fun k => ⟨.pending, BitVec.ofNat 32 (k + 1)⟩

/-- The record registers zeroed and the mask held, as after a failed run (R255, R256). -/
def noRecord (mask : Word) (res : URes) (s : State) : State :=
  { s with uMask := mask, uRes := res, uValid := 0, uRaw := Vector.replicate 23 0, uConsumed := 0, uTs := 0 }

/-- A record held (R212); the timestamp is the free value of the next draw (R17, log 8). -/
def withRecord (mask : Word) (raw : Vector Word 23) (valid : BitVec 23) (consumed : Nat) (s : State) : State :=
  { s with uMask := mask, uRes := .ok, uValid := valid, uRaw := raw, uConsumed := BitVec.ofNat 7 consumed,
           uTs := (Config.timeIn s.cfg.tsW s.draws).toNat, draws := s.draws + 1 }

/-- The decoder's registers when a header byte is taken: the attempt before is forgotten (R165, R46, R47). -/
def freshAttempt (s : State) : State :=
  { s with decRes := .none, decL := 0, decCrcCalc := 0, decCrcRecv := 0 }

/-- The `ERRLOG` bit a status sets, if any (R31, R251, R258). -/
def statusBit : Status → Option Nat
  | .ok | .pending | .frameOk | .absent => none
  | .unsupportedHeader => some 0
  | .badTerminator => some 1
  | .checksumMismatch => some 2
  | .truncatedPayload => some 3
  | .schemaExhausted => some 4
  | .illegalOp => some 8
  | .illegalState => some 9
  | .lengthUnrepresentable => some 10
  | .bufferFull => some 11
  | .indexRange => some 12
  | .noData => some 13

/-- The index of `RXBUF` at which `DEC.BYTE b` stores its byte, none where the byte is rejected (R165). -/
def rxStoredAt (b : Byte) (s : State) : Option Nat :=
  match s.decState with
  | .hdr => if b = 0x02 ∨ (b = 0x03 ∧ s.cfg.longDecode = true) then some 0 else none
  | .len | .lenh => some 1
  | .lenl => some 2
  | .acc => some s.decCnt.toNat

/-- The byte an instruction gives the decoder, for `DEC.BYTE` and the FRAME rows that stand for it (R65, log 1). -/
def givenByte : Instr → Option Byte
  | .decByte b => some b
  | .frameShort => some 0x02
  | .frameLong | .frameTerminator => some 0x03
  | _ => none

/-- A polynomial over GF(2) from its coefficients, the highest power first (R123). -/
noncomputable def polyOf (bits : List Bool) : Polynomial (ZMod 2) :=
  bits.foldl (fun p b => p * Polynomial.X + (if b then 1 else 0)) 0

/-- The bits of a byte, bit 7 first (R121, R123). -/
def bitsOf (b : Byte) : List Bool := (List.range 8).map fun i => b.getLsbD (7 - i)

/-- `M(x)` of a byte sequence (R123). -/
noncomputable def messagePoly (bytes : List Byte) : Polynomial (ZMod 2) := polyOf (bytes.flatMap bitsOf)

/-- The polynomial of a 16-bit register, bit k the coefficient of x^k (R123). -/
noncomputable def registerPoly (c : Half) : Polynomial (ZMod 2) :=
  polyOf ((List.range 16).map fun i => c.getLsbD (15 - i))

/-- `G(x) = x^16 + x^12 + x^5 + 1` (R120, R123). -/
noncomputable def generator : Polynomial (ZMod 2) :=
  Polynomial.X ^ 16 + Polynomial.X ^ 12 + Polynomial.X ^ 5 + 1

end Sys2Proof.Spec

open Sys2Proof Sys2Proof.Machine Sys2Proof.Spec

/-! ### Encoding and the port -/

/-- Decoding the encoding of a well-formed instruction gives it back, with every operand at every value (R80 to R83, R107).
Which row a received byte or a mask is spelled by is the model's reading (logs 2 and 3). -/
def Obligations.DecodeOfEncodeIsTheInstruction : Prop :=
  ∀ i : Instr, WellFormed i = true → decode (encodePos i) (encode i) = .ok i

/-- A command word that decodes is the encoding of what it decodes to: no two words mean one operation. -/
def Obligations.CommandWordHasOneMeaning : Prop :=
  ∀ (p : FramePos) (w : PortWord) (i : Instr), decode p (.cmd w) = .ok i → encode i = .cmd w

/-- R81, R82, R99: each of the sixteen codes runs its operation or is refused for a reserved bit, and each of the 240 others
is refused. -/
def Obligations.CommandWordsAreDecodedInOrder : Prop :=
  (∀ r ∈ cmdRows, PortLine r.1 r.2.1 r.2.2)
    ∧ (∀ (op : BitVec 8) (arg : Word) (s : State), op ∉ cmdRows.map (·.1) →
        step (Machine.present (.item (.cmd (op ++ arg))) s) = .next (logged .illegalOp 8 0 s))
    ∧ (cmdRows.map (·.1)).Nodup ∧ cmdRows.length = 16

/-- A step takes what the host presents next and executes the instruction it decodes to; with nothing presented a step
changes nothing (R10; the queue of what the host presents is the model's, log 4). -/
def Obligations.StepRunsTheDecodedInstruction : Prop :=
  (∀ (s : State) (item : HostItem) (rest : List PortEvent) (i : Instr),
      s.port = .item item :: rest → decode (framePos s) item = .ok i → WellFormed i = true →
      step s = exec i { s with port := rest })
    ∧ ∀ s : State, s.port = [] → step s = .next s

/-- Words written out from the encodings of R81 and R107 decode to their instructions, one of every family. The readings of the
8-bit and 32-bit words are the model's choice: a word's format is told by its bit count (log 20), and a one-bit mask is its slot's
FIELD row (log 3). -/
def Obligations.WrittenOutWordsDecode : Prop :=
  decodeTableWord 40 0x0000000000 = some .nop ∧ decodeTableWord 40 0x020000000B = some (.csrRd 0x0B)
    ∧ decodeTableWord 40 0x1100000004 = some (.crcUpd 0x04) ∧ decodeTableWord 40 0x2000000101 = some (.encStart 257)
    ∧ decodeTableWord 40 0x30000000C8 = some (.decByte 0xC8) ∧ decodeTableWord 40 0x42007FFFFF = some (.unpRun 0x007FFFFF)
    ∧ decodeTableWord 40 0x4400000010 = some (.schRd 16) ∧ decodeTableWord 40 0x1100000104 = none
    ∧ decodeTableWord 8 0x02 = some .frameShort ∧ decodeTableWord 32 0x00008000 = some .field15

/-- The rows of the table that are no operation add no behaviour (the model's choice, logs 1 to 3): a received byte runs as
`DEC.BYTE`, whatever its position, and a presence mask as `UNP.RUN`. -/
def Obligations.ReceivedBytesAndMasksRunTheirOperation : Prop :=
  (∀ (b : Byte) (s : State), step (Machine.present (.item (.rx b)) s) = exec (.decByte b) s)
    ∧ ∀ (m : Word) (s : State), step (Machine.present (.item (.mask m)) s) = exec (.unpRun m) s

/-! ### System operations -/

/-- R231. -/
def Obligations.NopAnswersAndChangesNothing : Prop :=
  PortLine 0x00 0 (fun _ => .nop) ∧ ∀ s : State, exec .nop s = .next (answered .ok 0 s)

/-- R232: every register takes its reset value; the buffers' bytes, the TX history and the parameters stay; no other operation
clears a bit of `ERRLOG`; the reset input has the same effect. -/
def Obligations.ResetRestoresEveryRegister : Prop :=
  PortLine 0x01 0 (fun _ => .reset)
    ∧ (∀ (i : Instr) (s t : State), i ≠ .reset → exec i s = .next t → s.errlog &&& t.errlog = s.errlog)
    ∧ (∀ s : State, ∃ t, exec .reset s = .next t ∧ step (Machine.present .resetInput s) = .next { t with rsp := none })
    ∧ ∀ s : State, exec .reset s = .next (answered .ok 0
        { s with crcAcc := 0, encState := .idle, encRem := 0, encCrc := 0, decState := .hdr, decCnt := 0, decL := 0,
                 decOff := 2, decRes := .none, decCrcCalc := 0, decCrcRecv := 0, ubufLen := 0, uMask := 0, uRes := .none,
                 uValid := 0, uRaw := Vector.replicate 23 0, uConsumed := 0, uTs := 0, errlog := 0 })

/-- R233, with each register laid out by the fields of R41 to R52: a field at bit k weighs 2^k, every other bit is 0, and states
and results stand as the numbers of R24, R29 and R30. For `U_TS` the value is stated where it fits the 32 bits of R51 (always so
with this hardware's `TS_W`); of a wider one only that the read answers `OK`. -/
def Obligations.CsrReadGivesTheRegister : Prop :=
  PortLine 0x02 8 (fun a => .csrRd (a.setWidth 8))
    ∧ (∀ s : State, ∀ r ∈
        [((0x00 : Byte), s.crcAcc.toNat), (0x01, encStateNumber s.encState + 65536 * s.encRem.toNat), (0x02, s.encCrc.toNat),
         (0x03, decStateNumber s.decState + 16 * decResNumber s.decRes + 256 * s.decOff.toNat), (0x04, s.decCnt.toNat),
         (0x05, s.decL.toNat), (0x06, 65536 * s.decCrcCalc.toNat + s.decCrcRecv.toNat),
         (0x07, uResNumber s.uRes + 256 * s.uConsumed.toNat + 65536 * s.ubufLen.toNat), (0x08, s.uMask.toNat),
         (0x09, s.uValid.toNat), (0x0B, s.errlog.toNat)],
        exec (.csrRd r.1) s = .next (answered .ok (BitVec.ofNat 32 r.2) s))
    ∧ (∀ s : State, s.uTs < 2 ^ 32 → exec (.csrRd 0x0A) s = .next (answered .ok (BitVec.ofNat 32 s.uTs) s))
    ∧ (∀ s : State, ∃ d, exec (.csrRd 0x0A) s = .next (answered .ok d s))
    ∧ ∀ (n : Byte) (s : State), 0x0B < n.toNat → exec (.csrRd n) s = .next (logged .indexRange 12 0 s)

/-- R282: the reset input does what `RESET` does and returns no response; neither touches the TX history. -/
def Obligations.ResetInputIsResetWithoutResponse : Prop :=
  ∀ s : State, ∃ t u : State,
    step (Machine.present .resetInput s) = .next t ∧ exec .reset s = .next u ∧ u.rsp = some ⟨.ok, 0⟩ ∧ t = { u with rsp := none }
      ∧ t.txout = s.txout ∧ u.txout = s.txout

/-! ### The checksum and its unit -/

/-- R124. -/
def Obligations.CrcClrClearsTheAccumulator : Prop :=
  PortLine 0x10 0 (fun _ => .crcClr) ∧ ∀ s : State, exec .crcClr s = .next (answered .ok 0 { s with crcAcc := 0 })

/-- R125: the accumulator takes `crc_update` of itself and the byte; the response carries the new value. -/
def Obligations.CrcUpdTakesOneByte : Prop :=
  PortLine 0x11 8 (fun a => .crcUpd (a.setWidth 8))
    ∧ ∀ (b : Byte) (s : State), exec (.crcUpd b) s = .next
        (answered .ok ((crcUpdate s.crcAcc b).setWidth 32) { s with crcAcc := crcUpdate s.crcAcc b })

/-- R121: the byte enters at the top of the register and eight bit steps follow. -/
def Obligations.CrcUpdateIsEightBitSteps : Prop :=
  ∀ (c : Half) (b : Byte),
    crcUpdate c b = (fun r : Half => if r.msb then (r <<< 1) ^^^ 0x1021#16 else r <<< 1)^[8] (c ^^^ (b.setWidth 16 <<< 8))

/-- R123: `crc16(B)` is the remainder of M(x) * x^16 divided by G(x). -/
def Obligations.CrcIsThePolynomialRemainder : Prop :=
  ∀ bytes : List Byte, registerPoly (crc16 bytes) = (messagePoly bytes * Polynomial.X ^ 16) %ₘ generator

/-- R123 items 1 and 4: linearity, and the byte-table form. -/
def Obligations.CrcIsLinear : Prop :=
  (∀ a b : List Byte, a.length = b.length → crc16 (List.zipWith (· ^^^ ·) a b) = crc16 a ^^^ crc16 b)
    ∧ ∀ (c : Half) (b : Byte), crcUpdate c b = crcUpdate 0 (b ^^^ (c >>> 8).setWidth 8) ^^^ (c <<< 8)

/-- R123 items 2 and 3: leading zero bytes are invisible; a sequence followed by its checksum gives zero. -/
def Obligations.CrcOfZerosAndOfItsOwnChecksum : Prop :=
  (∀ (n : Nat) (b : List Byte), crc16 (List.replicate n 0 ++ b) = crc16 b)
    ∧ ∀ b : List Byte, crc16 (b ++ [(crc16 b >>> 8).setWidth 8, (crc16 b).setWidth 8]) = 0

/-- R123 item 5: a change of one bit changes the result. -/
def Obligations.CrcSeesEverySingleBitChange : Prop :=
  ∀ (a c : List Byte) (b : Byte) (k : Nat), k < 8 → crc16 (a ++ [b ^^^ (1#8 <<< k)] ++ c) ≠ crc16 (a ++ [b] ++ c)

/-- R127: every 16-bit value is the checksum of exactly one two-byte sequence. -/
def Obligations.CrcOfTwoBytesIsOneToOne : Prop :=
  ∀ c : Half, ∃! p : Byte × Byte, crc16 [p.1, p.2] = c

/-- R126: reading the accumulator changes nothing of the block; clearing it, feeding the bytes of B and reading it returns
`crc16(B)`. -/
def Obligations.CrcUnitComputesTheChecksum : Prop :=
  (∀ s : State, exec (.csrRd 0x00) s = .next (answered .ok (s.crcAcc.setWidth 32) s))
    ∧ (∀ (b : Byte) (s : State), ∃ t, exec (.crcUpd b) s = .next t ∧ t.rsp = some ⟨.ok, t.crcAcc.setWidth 32⟩)
    ∧ ∀ (bytes : List Byte) (s : State), ∃ rs, execAll (.crcClr :: bytes.map .crcUpd ++ [.csrRd 0x00]) s
        = some (answered .ok ((crc16 bytes).setWidth 32) { s with crcAcc := crc16 bytes },
            rs ++ [⟨.ok, (crc16 bytes).setWidth 32⟩])

/-! ### The encoder -/

/-- R143. -/
def Obligations.EncStartBeginsAFrame : Prop :=
  PortLine 0x20 16 (fun a => .encStart (a.setWidth 16))
    ∧ (∀ (len : Half) (s : State), s.encState = .pay → exec (.encStart len) s = .next (logged .illegalState 9 0 s))
    ∧ ∀ (len : Half) (s : State), s.encState = .idle →
        (len.toNat = 256 → exec (.encStart len) s = .next (logged .lengthUnrepresentable 10 0 s))
          ∧ (len.toNat = 0 → exec (.encStart len) s = .next
              (emitting [0x02, 0x00, 0x00, 0x00, 0x03] { s with encCrc := 0 }))
          ∧ (1 ≤ len.toNat → len.toNat ≤ 255 → exec (.encStart len) s = .next
              (emitting [0x02, len.setWidth 8] { s with encCrc := 0, encRem := len, encState := .pay }))
          ∧ (257 ≤ len.toNat → exec (.encStart len) s = .next
              (emitting [0x03, (len >>> 8).setWidth 8, len.setWidth 8]
                { s with encCrc := 0, encRem := len, encState := .pay }))

/-- R144. -/
def Obligations.EncPushTakesOnePayloadByte : Prop :=
  PortLine 0x21 8 (fun a => .encPush (a.setWidth 8))
    ∧ (∀ (b : Byte) (s : State), s.encState = .idle → exec (.encPush b) s = .next (logged .illegalState 9 0 s))
    ∧ ∀ (b : Byte) (s : State), s.encState = .pay →
        (s.encRem = 1 → exec (.encPush b) s = .next
            (emitting [b, (crcUpdate s.encCrc b >>> 8).setWidth 8, (crcUpdate s.encCrc b).setWidth 8, 0x03]
              { s with encCrc := crcUpdate s.encCrc b, encRem := 0, encState := .idle }))
          ∧ (s.encRem ≠ 1 → exec (.encPush b) s = .next
              (emitting [b] { s with encCrc := crcUpdate s.encCrc b, encRem := s.encRem - 1 }))

/-- R145: in both states, nothing emitted. -/
def Obligations.EncAbortAbandonsTheFrame : Prop :=
  PortLine 0x22 0 (fun _ => .encAbort)
    ∧ ∀ s : State, exec .encAbort s = .next (answered .ok 0 { s with encState := .idle, encRem := 0, encCrc := 0 })

/-- R146: from IDLE, `ENC.START len(P)` and the pushes of P emit exactly `encode(P)`; length 256 emits nothing. -/
def Obligations.EncFrameEmitsEncode : Prop :=
  (∀ (p : List Byte) (s : State), s.encState = .idle → s.encRem = 0 → p.length ≤ 65535 → p.length ≠ 256 →
      ∃ f t rs, encodeFrame p = some f ∧ execAll (encFrameOps p) s = some (t, rs)
        ∧ t = { s with txout := s.txout ++ f, encCrc := crc16 p, rsp := t.rsp, emitted := t.emitted }
        ∧ rs.length = p.length + 1 ∧ (∀ r ∈ rs, r.status = .ok) ∧ (rs.map (·.data.toNat)).sum = f.length)
    ∧ ∀ (p : List Byte) (s : State), s.encState = .idle → p.length = 256 →
        ∃ t, execAll (encFrameOps p) s
            = some (t, ⟨.lengthUnrepresentable, 0⟩ :: List.replicate 256 ⟨.illegalState, 0⟩)
          ∧ t = { s with errlog := s.errlog ||| 0x00000600#32, rsp := t.rsp, emitted := [] }

/-- R142 items 1 to 3: the lengths of a frame, its first and last byte, and that different payloads give different frames. -/
def Obligations.EncodeShapeAndInjectivity : Prop :=
  (∀ p f : List Byte, encodeFrame p = some f →
      f.length = (if p.length ≤ 255 then p.length + 5 else p.length + 6)
        ∧ (f.head? = some 0x02 ∨ f.head? = some 0x03) ∧ f.getLast? = some 0x03)
    ∧ ∀ p q f : List Byte, encodeFrame p = some f → encodeFrame q = some f → p = q

/-! ### The decoder -/

/-- R165, its five states. In ACC the byte is the completing one exactly when the count reaches the total; the terminator is
judged before the checksum. -/
def Obligations.DecByteAdvancesTheDecoder : Prop :=
  PortLine 0x30 8 (fun a => .decByte (a.setWidth 8))
    ∧ (∀ (b : Byte) (s : State), s.decState = .hdr →
        (b = 0x02 → exec (.decByte b) s = .next (answered .pending 1
            { freshAttempt s with rxbuf := s.rxbuf.write 0 b, decOff := 2, decCnt := 1, decState := .len }))
          ∧ (b = 0x03 → s.cfg.longDecode = true → exec (.decByte b) s = .next (answered .pending 1
              { freshAttempt s with rxbuf := s.rxbuf.write 0 b, decOff := 3, decCnt := 1, decState := .lenh }))
          ∧ (b ≠ 0x02 → ¬(b = 0x03 ∧ s.cfg.longDecode = true) → exec (.decByte b) s = .next
              (logged .unsupportedHeader 0 (b.setWidth 32)
                { freshAttempt s with decRes := .unsupportedHeader, decCnt := 0 })))
    ∧ (∀ (b : Byte) (s : State), s.decState = .len → exec (.decByte b) s = .next (answered .pending 2
        { s with rxbuf := s.rxbuf.write 1 b, decL := b.setWidth 16, decCnt := 2, decState := .acc }))
    ∧ (∀ (b : Byte) (s : State), s.decState = .lenh → exec (.decByte b) s = .next (answered .pending 2
        { s with rxbuf := s.rxbuf.write 1 b, decL := BitVec.ofNat 16 (b.toNat * 256), decCnt := 2, decState := .lenl }))
    ∧ (∀ (b : Byte) (s : State), s.decState = .lenl → exec (.decByte b) s = .next (answered .pending 3
        { s with rxbuf := s.rxbuf.write 2 b, decL := s.decL + b.setWidth 16, decCnt := 3, decState := .acc }))
    ∧ ∀ (b : Byte) (s : State), s.decState = .acc →
        s.decL.toNat + s.decOff.toNat + 3 ≤ s.cfg.rxbufSize →
        (s.decCnt.toNat + 1 < s.decL.toNat + s.decOff.toNat + 3 → exec (.decByte b) s = .next
            (answered .pending (BitVec.ofNat 32 (s.decCnt.toNat + 1))
              { s with rxbuf := s.rxbuf.write s.decCnt.toNat b, decCnt := s.decCnt + 1 }))
          ∧ (s.decCnt.toNat + 1 = s.decL.toNat + s.decOff.toNat + 3 → b ≠ 0x03 → exec (.decByte b) s = .next
              (logged .badTerminator 1 (b.setWidth 32)
                { s with rxbuf := s.rxbuf.write s.decCnt.toNat b, decCnt := 0, decState := .hdr,
                         decRes := .badTerminator }))
          ∧ (s.decCnt.toNat + 1 = s.decL.toNat + s.decOff.toNat + 3 → b = 0x03 →
              ∀ computed recv : Half,
                computed = crc16 (s.rxbuf.slice s.decOff.toNat s.decL.toNat) →
                recv.toNat = (s.rxbuf.read (s.decOff.toNat + s.decL.toNat)).toNat * 256
                  + (s.rxbuf.read (s.decOff.toNat + s.decL.toNat + 1)).toNat →
                (computed = recv → exec (.decByte b) s = .next (answered .frameOk (s.decL.setWidth 32)
                    { s with rxbuf := s.rxbuf.write s.decCnt.toNat b, decCnt := 0, decState := .hdr, decRes := .ok,
                             decCrcCalc := computed, decCrcRecv := recv }))
                  ∧ (computed ≠ recv → exec (.decByte b) s = .next
                      (logged .checksumMismatch 2 (BitVec.ofNat 32 (computed.toNat * 65536 + recv.toNat))
                        { s with rxbuf := s.rxbuf.write s.decCnt.toNat b, decCnt := 0, decState := .hdr,
                                 decRes := .checksumMismatch, decCrcCalc := computed, decCrcRecv := recv })))

/-- R166. -/
def Obligations.DecRdReadsThePayload : Prop :=
  PortLine 0x31 16 (fun a => .decRd (a.setWidth 16))
    ∧ (∀ (idx : Half) (s : State), s.decRes ≠ .ok → exec (.decRd idx) s = .next (logged .noData 13 0 s))
    ∧ (∀ (idx : Half) (s : State), s.decRes = .ok → s.decL.toNat ≤ idx.toNat →
        exec (.decRd idx) s = .next (logged .indexRange 12 0 s))
    ∧ ∀ (idx : Half) (s : State), s.decRes = .ok → idx.toNat < s.decL.toNat →
        s.decOff.toNat + s.decL.toNat ≤ s.cfg.rxbufSize →
        exec (.decRd idx) s = .next
          (answered .ok ((s.rxbuf.read (s.decOff.toNat + idx.toNat)).setWidth 32) s)

/-- R167. -/
def Obligations.DecDropDiscardsTheFrame : Prop :=
  PortLine 0x32 0 (fun _ => .decDrop)
    ∧ ∀ s : State, exec .decDrop s = .next (answered .ok 0
        { s with decState := .hdr, decCnt := 0, decL := 0, decOff := 2, decRes := .none, decCrcCalc := 0, decCrcRecv := 0 })

/-- The FRAME rows complete (the model's reading of them, log 1): at a header position 0x02 starts a short-form frame and 0x03
a long-form one or is `UnsupportedHeader`; at the terminator position 0x03 ends the frame with its checksum judged. -/
def Obligations.FrameRowsDelimitFrames : Prop :=
  (∀ s : State, s.decState = .hdr → exec .frameShort s = .next (answered .pending 1
      { freshAttempt s with rxbuf := s.rxbuf.write 0 0x02, decOff := 2, decCnt := 1, decState := .len }))
    ∧ (∀ s : State, s.decState = .hdr → s.cfg.longDecode = true → exec .frameLong s = .next (answered .pending 1
        { freshAttempt s with rxbuf := s.rxbuf.write 0 0x03, decOff := 3, decCnt := 1, decState := .lenh }))
    ∧ (∀ s : State, s.decState = .hdr → s.cfg.longDecode = false → exec .frameLong s = .next
        (logged .unsupportedHeader 0 3 { freshAttempt s with decRes := .unsupportedHeader, decCnt := 0 }))
    ∧ ∀ s : State, s.decState = .acc → s.decL.toNat + s.decOff.toNat + 3 ≤ s.cfg.rxbufSize →
        s.decCnt.toNat + 1 = s.decL.toNat + s.decOff.toNat + 3 →
        ∀ recv : Half,
          recv.toNat = (s.rxbuf.read (s.decOff.toNat + s.decL.toNat)).toNat * 256
            + (s.rxbuf.read (s.decOff.toNat + s.decL.toNat + 1)).toNat →
          crc16 (s.rxbuf.slice s.decOff.toNat s.decL.toNat) = recv →
          exec .frameTerminator s = .next (answered .frameOk (s.decL.setWidth 32)
            { s with rxbuf := s.rxbuf.write s.decCnt.toNat 0x03, decCnt := 0, decState := .hdr, decRes := .ok,
                     decCrcCalc := recv, decCrcRecv := recv })

/-- R175: what feeding a byte sequence from state HDR comes to is `decode_frame` of it, byte for byte. -/
def Obligations.FeedingBytesIsDecodeFrame : Prop :=
  ∀ (s : State) (f : List Byte), Inv s → s.decState = .hdr →
    match decodeFrame s.cfg.longDecode f with
    | .nothing => f = [] ∧ execAll (decFeedOps f) s = some (s, [])
    | .pending => ∃ t, execAll (decFeedOps f) s = some (t, pendings f.length) ∧ t.decState ≠ .hdr
        ∧ t.decCnt.toNat = f.length
    | .unsupportedHeader b rest => f = b :: rest ∧ ∃ t,
        execAll (decFeedOps [b]) s = some (t, [⟨.unsupportedHeader, b.setWidth 32⟩])
          ∧ t.decState = .hdr ∧ t.decRes = .unsupportedHeader
    | .badTerminator b rest => ∃ g t, f = g ++ rest
        ∧ execAll (decFeedOps g) s = some (t, pendings (g.length - 1) ++ [⟨.badTerminator, b.setWidth 32⟩])
        ∧ t.decState = .hdr ∧ t.decRes = .badTerminator
    | .checksumMismatch computed recv rest => ∃ g t, f = g ++ rest
        ∧ execAll (decFeedOps g) s = some (t, pendings (g.length - 1) ++ [⟨.checksumMismatch, computed ++ recv⟩])
        ∧ t.decState = .hdr ∧ t.decRes = .checksumMismatch ∧ t.decCrcCalc = computed ∧ t.decCrcRecv = recv
    | .frameOk payload rest => ∃ g t, f = g ++ rest
        ∧ execAll (decFeedOps g) s
            = some (t, pendings (g.length - 1) ++ [⟨.frameOk, BitVec.ofNat 32 payload.length⟩])
        ∧ t.decState = .hdr ∧ t.decRes = .ok ∧ t.decL.toNat = payload.length
        ∧ t.rxbuf.slice t.decOff.toNat t.decL.toNat = payload

/-- R176: a decoder in state HDR given `encode(P)` answers `FRAME_OK` at the last byte and holds P, for every length it
accepts; with `LONG_DECODE` false a long-form frame is rejected at its first byte. -/
def Obligations.EncodeThenDecodeRoundTrips : Prop :=
  (∀ (s : State) (p : List Byte), Inv s → s.decState = .hdr →
      (p.length ≤ 255 ∨ (257 ≤ p.length ∧ p.length ≤ 65535 ∧ s.cfg.longDecode = true)) →
      ∃ f t, encodeFrame p = some f
        ∧ execAll (decFeedOps f) s
            = some (t, pendings (f.length - 1) ++ [⟨.frameOk, BitVec.ofNat 32 p.length⟩])
        ∧ ∀ (i : Nat) (h : i < p.length), exec (.decRd (BitVec.ofNat 16 i)) t
            = .next (answered .ok ((p[i]'h).setWidth 32) t))
    ∧ ∀ (s : State) (p : List Byte), s.decState = .hdr → 257 ≤ p.length → p.length ≤ 65535 →
        s.cfg.longDecode = false →
        ∃ rest t, encodeFrame p = some (0x03 :: rest) ∧ exec (.decByte 0x03) s = .next t
          ∧ t.rsp = some ⟨.unsupportedHeader, 3⟩ ∧ t.decState = .hdr

/-- R177: in a valid frame, a flipped bit of a checksum byte or of the payload is `ChecksumMismatch`; with `LONG_DECODE` false
a flipped bit of the header is `UnsupportedHeader`. -/
def Obligations.SingleBitFlipsAreDetected : Prop :=
  ∀ (long : Bool) (f payload : List Byte) (k j : Nat) (hj : j < f.length), k < 8 →
    decodeFrame long f = .frameOk payload [] →
    ((j = f.length - 3 ∨ j = f.length - 2) →
        ∃ recv, recv ≠ crc16 payload
          ∧ decodeFrame long (f.set j ((f[j]'hj) ^^^ (1#8 <<< k))) = .checksumMismatch (crc16 payload) recv [])
      ∧ (f.length - 3 - payload.length ≤ j → j < f.length - 3 →
          ∃ computed, computed ≠ crc16 payload
            ∧ decodeFrame long (f.set j ((f[j]'hj) ^^^ (1#8 <<< k))) = .checksumMismatch computed (crc16 payload) [])
      ∧ (j = 0 → long = false →
          decodeFrame long (f.set j ((f[j]'hj) ^^^ (1#8 <<< k))) = .unsupportedHeader ((f[j]'hj) ^^^ (1#8 <<< k)) f.tail)

/-- R178: a valid frame with another last byte is `BadTerminator` carrying that byte. -/
def Obligations.CorruptTerminatorIsBadTerminator : Prop :=
  ∀ (long : Bool) (f payload : List Byte) (v : Byte), decodeFrame long f = .frameOk payload [] → v ≠ 0x03 →
    decodeFrame long (f.set (f.length - 1) v) = .badTerminator v []

/-- R168 with R274 and R286: a byte that ends an attempt in an error, or that starts a new one, leaves no payload readable. -/
def Obligations.FailedFrameLeavesNoPayload : Prop :=
  ∀ (b : Byte) (s t : State) (r : Response), exec (.decByte b) s = .next t → t.rsp = some r →
    (r.status = .unsupportedHeader ∨ r.status = .badTerminator ∨ r.status = .checksumMismatch
      ∨ (s.decState = .hdr ∧ r.status = .pending)) →
    (r.status ≠ .pending → t.decState = .hdr ∧ t.decCnt = 0)
      ∧ ∀ idx : Half, exec (.decRd idx) t = .next (logged .noData 13 0 t)

/-! ### The schema -/

/-- R195 with the table of R191: width in [2:0], signed in [3], opaque in [4], the scale of a numeric slot in [31:8]. -/
def Obligations.SchRdReadsTheSchema : Prop :=
  PortLine 0x44 5 (fun a => .schRd (a.setWidth 5))
    ∧ (∀ (i : Slot) (s : State), s.cfg.ok = true →
        exec (.schRd (BitVec.ofNat 5 i.val)) s = .next (answered .ok
          (BitVec.ofNat 32 (if widths[i] = 1 then 1 + 16
            else widths[i] + 8 + 256 * (s.cfg.scale[i]).getD 0)) s))
    ∧ ∀ (x : BitVec 5) (s : State), 23 ≤ x.toNat → exec (.schRd x) s = .next (logged .indexRange 12 0 s)

/-- R191, R192, R102: the widths, the offsets in the full layout and its 72 bytes. -/
def Obligations.FullLayoutIsSeventyTwoBytes : Prop :=
  (∀ i : Slot, width i = widths[i] ∧ (isOpaqueSlot i = true ↔ i = 15 ∨ i = 17) ∧ isSigned i = !isOpaqueSlot i)
    ∧ (allSlots.map fun i => offsetOf i 0x007FFFFF#32)
        = [0, 2, 4, 8, 12, 16, 20, 22, 26, 28, 32, 36, 40, 44, 48, 52, 53, 57, 58, 60, 62, 64, 68]
    ∧ need 0x007FFFFF#32 = 72

/-! ### The unpacker -/

/-- R210. -/
def Obligations.UnpClrEmptiesTheUnpacker : Prop :=
  PortLine 0x40 0 (fun _ => .unpClr)
    ∧ ∀ s : State, exec .unpClr s = .next (answered .ok 0 { noRecord 0 .none s with ubufLen := 0 })

/-- R211. -/
def Obligations.UnpPushAppendsAByte : Prop :=
  PortLine 0x41 8 (fun a => .unpPush (a.setWidth 8))
    ∧ (∀ (b : Byte) (s : State), s.ubufLen.toNat = s.cfg.ubufSize →
        exec (.unpPush b) s = .next (logged .bufferFull 11 0 s))
    ∧ ∀ (b : Byte) (s : State), s.ubufLen.toNat < s.cfg.ubufSize → s.cfg.ubufSize ≤ 65535 →
        exec (.unpPush b) s = .next (answered .ok (BitVec.ofNat 32 (s.ubufLen.toNat + 1))
          { s with ubuf := s.ubuf.write s.ubufLen.toNat b, ubufLen := BitVec.ofNat 16 (s.ubufLen.toNat + 1) })

/-- R212: the effect of each of the three results of `unpack` over the bytes in `UBUF`; what remained is 0 to 3. (The timestamp is
a free value, the counter of draws the model's: log 8.) -/
def Obligations.UnpRunUnpacksTheBuffer : Prop :=
  PortLine 0x42 32 (fun a => .unpRun a)
    ∧ ∀ (mask : Word) (s : State), s.ubufLen.toNat ≤ s.cfg.ubufSize →
        match unpack (s.ubuf.slice 0 s.ubufLen.toNat) mask with
        | .record raw valid consumed => exec (.unpRun mask) s = .next
            (answered .ok (BitVec.ofNat 32 consumed) (withRecord mask raw valid consumed s))
        | .schemaExhausted hi => exec (.unpRun mask) s = .next
            (logged .schemaExhausted 4 (BitVec.ofNat 32 hi.toNat) (noRecord mask .schemaExhausted s))
              ∧ hi.toNat = mask.toNat / 2 ^ 23
        | .truncatedPayload i remaining => remaining ≤ 3 ∧ exec (.unpRun mask) s = .next
            (logged .truncatedPayload 3 (BitVec.ofNat 32 (remaining * 256 + i.val)) (noRecord mask .truncatedPayload s))

/-- R213: the range is judged first, then whether a record is held, then whether the slot is present. -/
def Obligations.UnpRdReadsAField : Prop :=
  PortLine 0x43 5 (fun a => .unpRd (a.setWidth 5))
    ∧ (∀ (x : BitVec 5) (s : State), 23 ≤ x.toNat → exec (.unpRd x) s = .next (logged .indexRange 12 0 s))
    ∧ ∀ (i : Slot) (s : State),
        (s.uRes ≠ .ok → exec (.unpRd (BitVec.ofNat 5 i.val)) s = .next (logged .noData 13 0 s))
          ∧ (s.uRes = .ok → s.uValid.getLsbD i.val = false →
              exec (.unpRd (BitVec.ofNat 5 i.val)) s = .next (answered .absent 0 s))
          ∧ (s.uRes = .ok → s.uValid.getLsbD i.val = true →
              exec (.unpRd (BitVec.ofNat 5 i.val)) s = .next (answered .ok s.uRaw[i] s))

/-- The rows `FIELD.0` to `FIELD.22` complete (the model's reading of them, log 1): with enough bytes in `UBUF` the record holds
that slot alone, its bytes read big-endian and sign- or zero-extended; with too few the slot is named in
`TruncatedPayload`. -/
def Obligations.FieldRowsUnpackTheirSlot : Prop :=
  ∀ r ∈ fieldTable, ∀ s : State, s.ubufLen.toNat ≤ s.cfg.ubufSize →
    (widths[r.1] ≤ s.ubufLen.toNat → exec r.2 s = .next (answered .ok (BitVec.ofNat 32 widths[r.1])
        (withRecord (1#32 <<< r.1.val) ((Vector.replicate 23 0).set r.1 (firstField r.1 s.ubuf)) (1#23 <<< r.1.val)
          widths[r.1] s)))
      ∧ (s.ubufLen.toNat < widths[r.1] → exec r.2 s = .next
          (logged .truncatedPayload 3 (BitVec.ofNat 32 (s.ubufLen.toNat * 256 + r.1.val))
            (noRecord (1#32 <<< r.1.val) .truncatedPayload s)))

/-- The row `FIELD.RESERVED` (the model's reading of it, logs 1 and 3): a mask with a bit at index 23 or above is
`SchemaExhausted` in every state, whatever the buffer holds; a legal one whose fields are all there completes with exactly its
slots present. -/
def Obligations.FieldReservedRowJudgesTheMask : Prop :=
  (∀ (m : Word) (s : State), 2 ^ 23 ≤ m.toNat → exec (.fieldReserved m) s = .next
      (logged .schemaExhausted 4 (m >>> 23) (noRecord m .schemaExhausted s)))
    ∧ ∀ (m : Word) (s : State), m.toNat < 2 ^ 23 → s.ubufLen.toNat ≤ s.cfg.ubufSize → need m ≤ s.ubufLen.toNat →
        ∃ raw, exec (.fieldReserved m) s = .next (answered .ok (BitVec.ofNat 32 (need m))
          (withRecord m raw (m.setWidth 23) (need m) s))

/-- R201: under a legal mask, with enough bytes, every present slot gets exactly its bytes at `off(i, M)`, and the slots'
bytes side by side are the first `need(M)` bytes of the payload: none left out, none used twice. -/
def Obligations.UnpackFollowsTheLayout : Prop :=
  ∀ (mask : Word) (b : List Byte), mask.toNat < 2 ^ 23 → need mask ≤ b.length →
    (∃ raw : Vector Word 23, unpack b mask = .record raw (mask.setWidth 23) (need mask)
        ∧ ∀ i : Slot, raw[i] = if mask.getLsbD i.val then fieldRaw i (b.drop (offsetOf i mask)) 0 else 0)
      ∧ (∀ i : Slot, mask.getLsbD i.val = true → offsetOf i mask + width i ≤ need mask)
      ∧ b.take (need mask) = (Spec.present mask).flatMap fun i => (b.drop (offsetOf i mask)).take (width i)

/-- R208, R209: `SchemaExhausted` exactly for a mask with a bit at index 23 or above; `TruncatedPayload` exactly for a legal
mask and too short a payload, at the first slot that does not fit, with the bytes left before it. -/
def Obligations.UnpackErrorsAreExact : Prop :=
  ∀ (mask : Word) (b : List Byte),
    (2 ^ 23 ≤ mask.toNat → unpack b mask = .schemaExhausted (mask.extractLsb' 23 9))
      ∧ (mask.toNat < 2 ^ 23 → b.length < need mask →
          ∃ i : Slot, unpack b mask = .truncatedPayload i (b.length - offsetOf i mask)
            ∧ mask.getLsbD i.val = true ∧ offsetOf i mask ≤ b.length ∧ b.length < offsetOf i mask + width i
            ∧ ∀ j : Slot, j < i → mask.getLsbD j.val = true → offsetOf j mask + width j ≤ b.length)

/-- R217: unpacking what `pack` built gives every present slot its value back, exactly. -/
def Obligations.PackThenUnpackRoundTrips : Prop :=
  ∀ (v : Vector Int 23) (mask : Word), mask.toNat < 2 ^ 23 →
    (∀ i : Slot, mask.getLsbD i.val = true → fieldInRange i v[i] = true) →
    ∃ raw : Vector Word 23, unpack (pack v mask) mask = .record raw (mask.setWidth 23) (pack v mask).length
      ∧ ∀ i : Slot, mask.getLsbD i.val = true → raw[i].toInt = v[i]

/-- R214: bytes beyond `need(M)` make no difference. -/
def Obligations.ExcessBytesAreIgnored : Prop :=
  ∀ (mask : Word) (b extra : List Byte), mask.toNat < 2 ^ 23 → need mask ≤ b.length →
    unpack (b ++ extra) mask = unpack b mask

/-- R218: two runs over the same bytes and mask agree in everything but the timestamp, which is whatever the time source
presents (a free value, log 8); a failed run leaves it 0. -/
def Obligations.RunsDifferOnlyInTheTimestamp : Prop :=
  ∀ (mask : Word) (s t : State) (k : Nat), exec (.unpRun mask) s = .next t →
    (∃ u, exec (.unpRun mask) { s with draws := k } = .next u
        ∧ u = { t with uTs := u.uTs, draws := u.draws })
      ∧ (t.uRes ≠ .ok → t.uTs = 0 ∧ t.draws = s.draws)

/-- R255, R256, R274: after a failed run no field is readable, and the payload bytes are untouched. -/
def Obligations.FailedRunLeavesNoRecord : Prop :=
  ∀ (mask : Word) (s t : State), exec (.unpRun mask) s = .next t →
    (∃ r, t.rsp = some r ∧ (r.status = .truncatedPayload ∨ r.status = .schemaExhausted)) →
    (∀ i : Slot, recordField t i = none ∧ exec (.unpRd (BitVec.ofNat 5 i.val)) t = .next (logged .noData 13 0 t))
      ∧ t.uMask = mask ∧ t.ubuf = s.ubuf ∧ t.ubufLen = s.ubufLen

/-! ### The whole machine -/

/-- Every step keeps the invariant of R56 (items 1 to 10), the register facts of R31, R46 and R47 and the canonical form of the
buffers, from every state that has them. -/
def Obligations.EveryStepKeepsTheInvariant : Prop :=
  ∀ s t : State, Inv s → step s = .next t → Inv t

/-- The invariant holds in the reset state, for this hardware's parameters and for every configuration R13 and R193 allow. -/
def Obligations.ResetSatisfiesTheInvariant : Prop :=
  Inv State.reset ∧ ∀ c : Config, c.ok = true → Inv { State.reset with cfg := c }

/-- R56: items 1 to 10 in every reachable state, and item 11: no step but a reset makes `ERRLOG` lose a bit. -/
def Obligations.ReachableStatesSatisfyTheInvariant : Prop :=
  ∀ s : State, Reachable s →
    Inv s ∧ ∀ (e : PortEvent) (t : State), step (Machine.present e s) = .next t → e ≠ .resetInput →
      (∀ item, e = .item item → decode (framePos s) item ≠ .ok .reset) → s.errlog &&& t.errlog = s.errlog

/-- R265: from a state with the invariant, whatever is presented, the block goes on: it never stops. -/
def Obligations.TheBlockNeverStops : Prop :=
  ∀ (s : State) (e : PortEvent), Inv s → ∃ t, step (Machine.present e s) = .next t

/-- R273 and R84: every operation answers, with one of the statuses the outcome matrix allows it. -/
def Obligations.EveryOperationAnswersWithinTheMatrix : Prop :=
  ∀ (i : Instr) (s : State), Inv s →
    ∃ t r, exec i s = .next t ∧ t.rsp = some r ∧ r.status ∈ allowedStatuses i

/-- R31: a step sets exactly the `ERRLOG` bit of the status it answers; only reset, by either source, clears bits; the
unassigned bits are always 0. -/
def Obligations.ErrlogIsSticky : Prop :=
  (∀ (i : Instr) (s t : State), i ≠ .reset → exec i s = .next t →
      ∃ r, t.rsp = some r ∧ t.errlog =
        match statusBit r.status with
        | some k => s.errlog ||| (1#32 <<< k)
        | none => s.errlog)
    ∧ (∀ (w : PortWord) (s : State) (p : FramePos) (err : DecodeError), decode p (.cmd w) = .error err →
        ∃ t, step (Machine.present (.item (.cmd w)) s) = .next t ∧ t.errlog = s.errlog ||| (1#32 <<< 8))
    ∧ (∀ (s t : State), exec .reset s = .next t ∨ step (Machine.present .resetInput s) = .next t → t.errlog = 0)
    ∧ ∀ s : State, Reachable s → s.errlog &&& 0xFFFFC0E0#32 = 0

/-- R86: what an operation emits is appended to the TX stream and handed over, the same bytes in the same order; only
`ENC.START` and `ENC.PUSH` answering `OK` emit, and then the data is the number of bytes, 1 to 5. -/
def Obligations.EmittedBytesAreAppended : Prop :=
  ∀ (i : Instr) (s t : State), exec i s = .next t →
    t.txout = s.txout ++ t.emitted
      ∧ (t.emitted ≠ [] → (∃ len, i = .encStart len) ∨ ∃ b, i = .encPush b)
      ∧ ∀ r, t.rsp = some r →
          (r.status ≠ .ok → t.emitted = [])
            ∧ ((∃ len, i = .encStart len) ∨ (∃ b, i = .encPush b) → r.status = .ok →
                r.data = BitVec.ofNat 32 t.emitted.length ∧ t.emitted.length ∈ [2, 3, 5, 1, 4])

/-- The frame of the buffers (R60 to R62, R69): `DEC.BYTE` stores one byte at the index the state gives, `UNP.PUSH` one at
`UBUF_LEN`; every other byte of both buffers reads as before, and no other instruction stores anything. -/
def Obligations.BuffersChangeOnlyWhereStored : Prop :=
  ∀ (i : Instr) (s t : State), Inv s → exec i s = .next t →
    (∀ b, givenByte i = some b →
        (∀ a, rxStoredAt b s = some a → t.rxbuf.read a = b) ∧ (∀ a, rxStoredAt b s ≠ some a → t.rxbuf.read a = s.rxbuf.read a)
          ∧ ∀ a, t.ubuf.read a = s.ubuf.read a)
      ∧ (∀ b, i = .unpPush b →
          (s.ubufLen.toNat < s.cfg.ubufSize → t.ubuf.read s.ubufLen.toNat = b)
            ∧ (∀ a, a ≠ s.ubufLen.toNat → t.ubuf.read a = s.ubuf.read a) ∧ ∀ a, t.rxbuf.read a = s.rxbuf.read a)
      ∧ (givenByte i = none → (∀ b, i ≠ .unpPush b) →
          ∀ a, t.rxbuf.read a = s.rxbuf.read a ∧ t.ubuf.read a = s.ubuf.read a)

/-- R71: the four reads change nothing of the block, but for the one `ERRLOG` bit of the refusal when one of them is refused;
repeated, they answer the same, refused or not, and the state stays as it is. -/
def Obligations.ReadsChangeNothing : Prop :=
  ∀ (i : Instr) (s t : State),
    ((∃ n, i = .csrRd n) ∨ (∃ idx, i = .decRd idx) ∨ (∃ x, i = .unpRd x) ∨ ∃ x, i = .schRd x) →
    exec i s = .next t →
    ∃ r, t.rsp = some r ∧ SameBlock { s with errlog := t.errlog } t
      ∧ ((r.status = .ok ∨ r.status = .absent) ∧ t.errlog = s.errlog
          ∨ r.status = .indexRange ∧ t.errlog = s.errlog ||| (1#32 <<< 12)
          ∨ r.status = .noData ∧ t.errlog = s.errlog ||| (1#32 <<< 13))
      ∧ exec i t = .next t

/-- R271: an operation of one unit changes only that unit's registers, the log, and what it emits; the reads of SYS and SCH
change no unit. -/
def Obligations.UnitsAreIndependent : Prop :=
  ∀ (i : Instr) (s t : State), exec i s = .next t → i ≠ .reset →
    (unitOf i ≠ .crc → SameCrcUnit s t) ∧ (unitOf i ≠ .enc → SameEncUnit s t ∧ t.txout = s.txout)
      ∧ (unitOf i ≠ .dec → SameDecUnit s t) ∧ (unitOf i ≠ .unp → SameUnpUnit s t)

/-- R271: operations of different units may be interleaved freely: in either order they leave the same block and give the same
responses. (SYS is left out: `CSR.RD` reads every unit and `RESET` writes every unit.) -/
def Obligations.OperationsOfDifferentUnitsCommute : Prop :=
  ∀ (i j : Instr) (s t u : State), unitOf i ≠ unitOf j → unitOf i ≠ .sys → unitOf j ≠ .sys →
    exec i s = .next t → exec j t = .next u →
    ∃ t' u', exec j s = .next t' ∧ exec i t' = .next u' ∧ SameBlock u u' ∧ t'.rsp = u.rsp ∧ u'.rsp = t.rsp

/-- No operation touches the parameters of the instance (R35, R196) or what the host presents next; a timestamp is drawn, and
latched, by a run of the unpacker that answers `OK`, and by nothing else (R17, log 8). -/
def Obligations.ParametersAndPortAreNotWritten : Prop :=
  ∀ (i : Instr) (s t : State), exec i s = .next t →
    t.cfg = s.cfg ∧ t.port = s.port
      ∧ (runsUnpacker i ∧ (∃ r, t.rsp = some r ∧ r.status = .ok) →
          t.draws = s.draws + 1 ∧ t.uTs = (Config.timeIn s.cfg.tsW s.draws).toNat)
      ∧ (¬(runsUnpacker i ∧ ∃ r, t.rsp = some r ∧ r.status = .ok) → t.draws = s.draws)

/-! ### The response word -/

/-- R84, R85 and R257: the response word is the status code, as R85 numbers it, above the 32 bits of data; the error classes are
those R85 gives by code. -/
def Obligations.ResponseWordIsStatusThenData : Prop :=
  (∀ (st : Status) (d : Word), (Response.mk st d).word.toNat = statusNumber st * 2 ^ 32 + d.toNat)
    ∧ ∀ st : Status, (st.isFramingError = true ↔ statusNumber st = 0x10 ∨ statusNumber st = 0x11)
        ∧ (st.isIntegrityError = true ↔ statusNumber st = 0x12)
        ∧ (st.isSchemaError = true ↔ statusNumber st = 0x20 ∨ statusNumber st = 0x21)
end

