-- ==== Sys2Proof/Laws/Memory.lean ====
section
/-! SUPPORT. The laws of the byte buffers: read after write, the canonical form and its uniqueness, bounds, slices. -/

namespace Sys2Proof.Machine

@[simp] theorem Memory.read_nil (a : Nat) : Memory.read [] a = Memory.unlisted := rfl

@[simp] theorem Memory.wf_nil : Memory.wf [] = true := rfl

/-- A canonical buffer: its first byte is listed for a reason, the rest is canonical and lies above it. -/
theorem Memory.wf_cons {a : Nat} {v : Byte} {rest : Memory} (h : Memory.wf ((a, v) :: rest) = true) :
    v ≠ Memory.unlisted ∧ Memory.wf rest = true ∧ ∀ c ∈ rest, a < c.1 := by
  induction rest generalizing a v with
  | nil => exact ⟨by simpa [Memory.wf] using h, rfl, by simp⟩
  | cons c rest ih =>
    obtain ⟨b, w⟩ := c
    simp only [Memory.wf, Bool.and_eq_true, bne_iff_ne, decide_eq_true_eq] at h
    obtain ⟨⟨hv, hab⟩, hrest⟩ := h
    refine ⟨hv, hrest, ?_⟩
    intro c hc
    rcases List.mem_cons.1 hc with rfl | hc
    · exact hab
    · exact lt_trans hab ((ih hrest).2.2 c hc)

theorem Memory.wf_cons_intro {a : Nat} {v : Byte} {rest : Memory} (hv : v ≠ Memory.unlisted)
    (hr : Memory.wf rest = true) (hlt : ∀ c ∈ rest, a < c.1) : Memory.wf ((a, v) :: rest) = true := by
  cases rest with
  | nil => simpa [Memory.wf] using hv
  | cons c rest =>
    obtain ⟨b, w⟩ := c
    simp only [Memory.wf, Bool.and_eq_true, bne_iff_ne, decide_eq_true_eq]
    exact ⟨⟨hv, hlt _ List.mem_cons_self⟩, hr⟩

/-- An index below every listed one reads as unlisted. -/
theorem Memory.read_below {m : Memory} {a : Nat} (h : ∀ c ∈ m, a < c.1) : m.read a = Memory.unlisted := by
  induction m with
  | nil => rfl
  | cons c rest ih =>
    obtain ⟨k, v⟩ := c
    have hk : a < k := h _ List.mem_cons_self
    rw [Memory.read, if_neg (by omega)]
    exact ih fun c hc => h c (List.mem_cons_of_mem _ hc)

/-- A write lists no index but its own and the ones already listed. -/
theorem Memory.mem_write {m : Memory} {a : Nat} {v : Byte} {c : Host.Cell} (h : c ∈ m.write a v) :
    c.1 = a ∨ c ∈ m := by
  induction m with
  | nil =>
    unfold Memory.write at h
    split at h
    · simp at h
    · exact .inl (by rw [List.mem_singleton.1 h])
  | cons d rest ih =>
    obtain ⟨k, w⟩ := d
    unfold Memory.write at h
    split at h
    · rcases List.mem_cons.1 h with rfl | h
      · exact .inr List.mem_cons_self
      · exact (ih h).imp id (List.mem_cons_of_mem _)
    · split at h <;> split at h
      · exact .inr (List.mem_cons_of_mem _ h)
      · rcases List.mem_cons.1 h with rfl | h
        · exact .inl rfl
        · exact .inr (List.mem_cons_of_mem _ h)
      · exact .inr h
      · rcases List.mem_cons.1 h with rfl | h
        · exact .inl rfl
        · exact .inr h

/-- Every write keeps the canonical form. -/
theorem Memory.write_wf {m : Memory} (a : Nat) (v : Byte) (h : m.wf = true) : (m.write a v).wf = true := by
  induction m with
  | nil =>
    unfold Memory.write
    split
    · rfl
    · exact Memory.wf_cons_intro ‹_› rfl (by simp)
  | cons d rest ih =>
    obtain ⟨k, w⟩ := d
    obtain ⟨hw, hr, hlt⟩ := Memory.wf_cons h
    unfold Memory.write
    split
    · refine Memory.wf_cons_intro hw (ih hr) fun c hc => ?_
      rcases Memory.mem_write hc with hc | hc
      · omega
      · exact hlt c hc
    · split <;> split
      · exact hr
      · exact Memory.wf_cons_intro ‹_› hr fun c hc => by have := hlt c hc; omega
      · exact h
      · refine Memory.wf_cons_intro ‹_› h fun c hc => ?_
        rcases List.mem_cons.1 hc with rfl | hc
        · show a < k; omega
        · have := hlt c hc; omega

/-- Reading the index just written gives the byte written. -/
@[simp] theorem Memory.read_write_same {m : Memory} (a : Nat) (v : Byte) (h : m.wf = true) :
    (m.write a v).read a = v := by
  induction m with
  | nil =>
    unfold Memory.write
    split
    · exact (‹v = _›).symm
    · simp [Memory.read]
  | cons d rest ih =>
    obtain ⟨k, w⟩ := d
    obtain ⟨-, hr, hlt⟩ := Memory.wf_cons h
    unfold Memory.write
    split
    · rw [Memory.read, if_neg (by omega)]; exact ih hr
    · split <;> split
      · rename_i hk hv
        rw [hv]; exact Memory.read_below fun c hc => by have := hlt c hc; omega
      · simp [Memory.read]
      · rename_i hk hv
        rw [hv]
        refine Memory.read_below fun c hc => ?_
        rcases List.mem_cons.1 hc with rfl | hc
        · show a < k; omega
        · have := hlt c hc; omega
      · simp [Memory.read]

/-- A write leaves every other index as it was. -/
theorem Memory.read_write_other {m : Memory} {a b : Nat} (v : Byte) (hab : b ≠ a) :
    (m.write a v).read b = m.read b := by
  induction m with
  | nil =>
    unfold Memory.write
    split
    · rfl
    · simp [Memory.read, hab.symm]
  | cons d rest ih =>
    obtain ⟨k, w⟩ := d
    unfold Memory.write
    split
    · simp only [Memory.read, ih]
    · split <;> split
      · rename_i hk hv
        rw [Memory.read, if_neg (by omega)]
      · rename_i hk hv
        rw [Memory.read, if_neg hab.symm, Memory.read, if_neg (by omega)]
      · rfl
      · rw [Memory.read, if_neg hab.symm]

/-- Equal contents, equal data: the canonical form is unique. -/
theorem Memory.wf_ext {m n : Memory} (hm : m.wf = true) (hn : n.wf = true) (h : ∀ a, m.read a = n.read a) : m = n := by
  induction m generalizing n with
  | nil =>
    cases n with
    | nil => rfl
    | cons d rest =>
      obtain ⟨k, w⟩ := d
      obtain ⟨hw, -, -⟩ := Memory.wf_cons hn
      exact absurd (by simpa [Memory.read] using (h k).symm) hw
  | cons c m ih =>
    obtain ⟨a, v⟩ := c
    obtain ⟨hv, hmr, hmlt⟩ := Memory.wf_cons hm
    cases n with
    | nil => exact absurd (by simpa [Memory.read] using h a) hv
    | cons d n =>
      obtain ⟨b, w⟩ := d
      obtain ⟨hw, hnr, hnlt⟩ := Memory.wf_cons hn
      have hab : a = b := by
        rcases lt_trichotomy a b with hlt | heq | hlt
        · have hb : Memory.read ((b, w) :: n) a = Memory.unlisted := Memory.read_below fun c hc => by
            rcases List.mem_cons.1 hc with rfl | hc
            · exact hlt
            · have := hnlt c hc; omega
          have := h a
          rw [hb, Memory.read, if_pos rfl] at this
          exact absurd this hv
        · exact heq
        · have hb : Memory.read ((a, v) :: m) b = Memory.unlisted := Memory.read_below fun c hc => by
            rcases List.mem_cons.1 hc with rfl | hc
            · exact hlt
            · have := hmlt c hc; omega
          have := h b
          rw [hb, Memory.read, if_pos rfl] at this
          exact absurd this.symm hw
      subst hab
      have hvw : v = w := by simpa [Memory.read] using h a
      subst hvw
      have := ih hmr hnr fun x => by
        rcases eq_or_ne a x with rfl | hx
        · rw [Memory.read_below hmlt, Memory.read_below hnlt]
        · simpa [Memory.read, hx] using h x
      rw [this]

@[simp] theorem Memory.length_slice (m : Memory) (a n : Nat) : (m.slice a n).length = n := by
  simp [Memory.slice]

@[simp] theorem Memory.slice_zero (m : Memory) (a : Nat) : m.slice a 0 = [] := rfl

/-- Byte `i` of a slice is the buffer's byte at `a + i`. -/
theorem Memory.getElem_slice (m : Memory) (a n i : Nat) (h : i < (m.slice a n).length) :
    (m.slice a n)[i] = m.read (a + i) := by
  simp [Memory.slice]

/-- Slices over the same bytes are equal. -/
theorem Memory.slice_congr {m m' : Memory} {a n : Nat} (h : ∀ i < n, m'.read (a + i) = m.read (a + i)) :
    m'.slice a n = m.slice a n := by
  unfold Memory.slice
  exact List.map_congr_left fun i hi => h i (List.mem_range.1 hi)

/-- A slice one byte longer ends with the byte at its end. -/
theorem Memory.slice_succ (m : Memory) (a n : Nat) : m.slice a (n + 1) = m.slice a n ++ [m.read (a + n)] := by
  simp [Memory.slice, List.range_succ]

/-- A write outside a slice leaves it as it was. -/
theorem Memory.slice_write_outside {m : Memory} {a n k : Nat} (v : Byte) (h : k < a ∨ a + n ≤ k) :
    (m.write k v).slice a n = m.slice a n :=
  Memory.slice_congr fun _ _ => Memory.read_write_other v (by omega)

/-- Writing right after a slice appends to it. -/
theorem Memory.slice_write_end {m : Memory} (a n : Nat) (v : Byte) (h : m.wf = true) :
    (m.write (a + n) v).slice a (n + 1) = m.slice a n ++ [v] := by
  rw [Memory.slice_succ, Memory.slice_write_outside v (.inr (le_refl _)), Memory.read_write_same _ _ h]

/-- What `writeByte` can do. -/
theorem writeByte_eq_some {size : Nat} {m m' : Memory} {a : Nat} {v : Byte} :
    writeByte size m a v = some m' ↔ a < size ∧ m' = m.write a v := by
  simp [writeByte, eq_comm]

/-- What `readByte` can do. -/
theorem readByte_eq_some {size : Nat} {m : Memory} {a : Nat} {v : Byte} :
    readByte size m a = some v ↔ a < size ∧ v = m.read a := by
  simp [readByte, eq_comm]

/-- What `readHalf` can do. -/
theorem readHalf_eq_some {size : Nat} {m : Memory} {a : Nat} {v : Half} :
    readHalf size m a = some v ↔ a + 1 < size ∧ v = be16 (m.read a) (m.read (a + 1)) := by
  simp [readHalf, eq_comm]

/-- What `readRun` can do. -/
theorem readRun_eq_some {size : Nat} {m : Memory} {a n : Nat} {l : List Byte} :
    readRun size m a n = some l ↔ a + n ≤ size ∧ l = m.slice a n := by
  simp [readRun, eq_comm]

/-- A write inside the buffer keeps every listed index inside it. -/
theorem Memory.write_bounded {m : Memory} {a size : Nat} (v : Byte) (ha : a < size) (h : ∀ c ∈ m, c.1 < size) :
    ∀ c ∈ m.write a v, c.1 < size := fun c hc => by
  rcases Memory.mem_write hc with hc | hc
  · omega
  · exact h c hc

end Sys2Proof.Machine
end

