-- ==== Sys2Proof/Laws/State.lean ====
section
/-! SUPPORT. One lemma per field for each update of the state that the operations share: what the update makes of the field.
They say with @[simp] what no later proof has to unfold. -/

namespace Sys2Proof.Machine

variable (s : State)

/-! ### `answer` -/

@[simp] theorem answer_crcAcc (st : Status) (d : Word) (bytes : List Byte) : (answer st d bytes s).crcAcc = s.crcAcc := rfl
@[simp] theorem answer_encState (st : Status) (d : Word) (bytes : List Byte) : (answer st d bytes s).encState = s.encState := rfl
@[simp] theorem answer_encRem (st : Status) (d : Word) (bytes : List Byte) : (answer st d bytes s).encRem = s.encRem := rfl
@[simp] theorem answer_encCrc (st : Status) (d : Word) (bytes : List Byte) : (answer st d bytes s).encCrc = s.encCrc := rfl
@[simp] theorem answer_decState (st : Status) (d : Word) (bytes : List Byte) : (answer st d bytes s).decState = s.decState := rfl
@[simp] theorem answer_decCnt (st : Status) (d : Word) (bytes : List Byte) : (answer st d bytes s).decCnt = s.decCnt := rfl
@[simp] theorem answer_decL (st : Status) (d : Word) (bytes : List Byte) : (answer st d bytes s).decL = s.decL := rfl
@[simp] theorem answer_decOff (st : Status) (d : Word) (bytes : List Byte) : (answer st d bytes s).decOff = s.decOff := rfl
@[simp] theorem answer_decRes (st : Status) (d : Word) (bytes : List Byte) : (answer st d bytes s).decRes = s.decRes := rfl
@[simp] theorem answer_decCrcCalc (st : Status) (d : Word) (bytes : List Byte) : (answer st d bytes s).decCrcCalc = s.decCrcCalc := rfl
@[simp] theorem answer_decCrcRecv (st : Status) (d : Word) (bytes : List Byte) : (answer st d bytes s).decCrcRecv = s.decCrcRecv := rfl
@[simp] theorem answer_rxbuf (st : Status) (d : Word) (bytes : List Byte) : (answer st d bytes s).rxbuf = s.rxbuf := rfl
@[simp] theorem answer_ubuf (st : Status) (d : Word) (bytes : List Byte) : (answer st d bytes s).ubuf = s.ubuf := rfl
@[simp] theorem answer_ubufLen (st : Status) (d : Word) (bytes : List Byte) : (answer st d bytes s).ubufLen = s.ubufLen := rfl
@[simp] theorem answer_uMask (st : Status) (d : Word) (bytes : List Byte) : (answer st d bytes s).uMask = s.uMask := rfl
@[simp] theorem answer_uRes (st : Status) (d : Word) (bytes : List Byte) : (answer st d bytes s).uRes = s.uRes := rfl
@[simp] theorem answer_uValid (st : Status) (d : Word) (bytes : List Byte) : (answer st d bytes s).uValid = s.uValid := rfl
@[simp] theorem answer_uRaw (st : Status) (d : Word) (bytes : List Byte) : (answer st d bytes s).uRaw = s.uRaw := rfl
@[simp] theorem answer_uConsumed (st : Status) (d : Word) (bytes : List Byte) : (answer st d bytes s).uConsumed = s.uConsumed := rfl
@[simp] theorem answer_uTs (st : Status) (d : Word) (bytes : List Byte) : (answer st d bytes s).uTs = s.uTs := rfl
@[simp] theorem answer_errlog (st : Status) (d : Word) (bytes : List Byte) : (answer st d bytes s).errlog = s.errlog := rfl
@[simp] theorem answer_txout (st : Status) (d : Word) (bytes : List Byte) : (answer st d bytes s).txout = s.txout ++ bytes := rfl
@[simp] theorem answer_rsp (st : Status) (d : Word) (bytes : List Byte) : (answer st d bytes s).rsp = some ⟨st, d⟩ := rfl
@[simp] theorem answer_emitted (st : Status) (d : Word) (bytes : List Byte) : (answer st d bytes s).emitted = bytes := rfl
@[simp] theorem answer_port (st : Status) (d : Word) (bytes : List Byte) : (answer st d bytes s).port = s.port := rfl
@[simp] theorem answer_draws (st : Status) (d : Word) (bytes : List Byte) : (answer st d bytes s).draws = s.draws := rfl
@[simp] theorem answer_cfg (st : Status) (d : Word) (bytes : List Byte) : (answer st d bytes s).cfg = s.cfg := rfl

/-! ### `answerOk` -/

@[simp] theorem answerOk_crcAcc (d : Word) : (answerOk d s).crcAcc = s.crcAcc := rfl
@[simp] theorem answerOk_encState (d : Word) : (answerOk d s).encState = s.encState := rfl
@[simp] theorem answerOk_encRem (d : Word) : (answerOk d s).encRem = s.encRem := rfl
@[simp] theorem answerOk_encCrc (d : Word) : (answerOk d s).encCrc = s.encCrc := rfl
@[simp] theorem answerOk_decState (d : Word) : (answerOk d s).decState = s.decState := rfl
@[simp] theorem answerOk_decCnt (d : Word) : (answerOk d s).decCnt = s.decCnt := rfl
@[simp] theorem answerOk_decL (d : Word) : (answerOk d s).decL = s.decL := rfl
@[simp] theorem answerOk_decOff (d : Word) : (answerOk d s).decOff = s.decOff := rfl
@[simp] theorem answerOk_decRes (d : Word) : (answerOk d s).decRes = s.decRes := rfl
@[simp] theorem answerOk_decCrcCalc (d : Word) : (answerOk d s).decCrcCalc = s.decCrcCalc := rfl
@[simp] theorem answerOk_decCrcRecv (d : Word) : (answerOk d s).decCrcRecv = s.decCrcRecv := rfl
@[simp] theorem answerOk_rxbuf (d : Word) : (answerOk d s).rxbuf = s.rxbuf := rfl
@[simp] theorem answerOk_ubuf (d : Word) : (answerOk d s).ubuf = s.ubuf := rfl
@[simp] theorem answerOk_ubufLen (d : Word) : (answerOk d s).ubufLen = s.ubufLen := rfl
@[simp] theorem answerOk_uMask (d : Word) : (answerOk d s).uMask = s.uMask := rfl
@[simp] theorem answerOk_uRes (d : Word) : (answerOk d s).uRes = s.uRes := rfl
@[simp] theorem answerOk_uValid (d : Word) : (answerOk d s).uValid = s.uValid := rfl
@[simp] theorem answerOk_uRaw (d : Word) : (answerOk d s).uRaw = s.uRaw := rfl
@[simp] theorem answerOk_uConsumed (d : Word) : (answerOk d s).uConsumed = s.uConsumed := rfl
@[simp] theorem answerOk_uTs (d : Word) : (answerOk d s).uTs = s.uTs := rfl
@[simp] theorem answerOk_errlog (d : Word) : (answerOk d s).errlog = s.errlog := rfl
@[simp] theorem answerOk_txout (d : Word) : (answerOk d s).txout = s.txout := List.append_nil _
@[simp] theorem answerOk_rsp (d : Word) : (answerOk d s).rsp = some ⟨.ok, d⟩ := rfl
@[simp] theorem answerOk_emitted (d : Word) : (answerOk d s).emitted = [] := rfl
@[simp] theorem answerOk_port (d : Word) : (answerOk d s).port = s.port := rfl
@[simp] theorem answerOk_draws (d : Word) : (answerOk d s).draws = s.draws := rfl
@[simp] theorem answerOk_cfg (d : Word) : (answerOk d s).cfg = s.cfg := rfl

/-! ### `answerEmit` -/

@[simp] theorem answerEmit_crcAcc (bytes : List Byte) : (answerEmit bytes s).crcAcc = s.crcAcc := rfl
@[simp] theorem answerEmit_encState (bytes : List Byte) : (answerEmit bytes s).encState = s.encState := rfl
@[simp] theorem answerEmit_encRem (bytes : List Byte) : (answerEmit bytes s).encRem = s.encRem := rfl
@[simp] theorem answerEmit_encCrc (bytes : List Byte) : (answerEmit bytes s).encCrc = s.encCrc := rfl
@[simp] theorem answerEmit_decState (bytes : List Byte) : (answerEmit bytes s).decState = s.decState := rfl
@[simp] theorem answerEmit_decCnt (bytes : List Byte) : (answerEmit bytes s).decCnt = s.decCnt := rfl
@[simp] theorem answerEmit_decL (bytes : List Byte) : (answerEmit bytes s).decL = s.decL := rfl
@[simp] theorem answerEmit_decOff (bytes : List Byte) : (answerEmit bytes s).decOff = s.decOff := rfl
@[simp] theorem answerEmit_decRes (bytes : List Byte) : (answerEmit bytes s).decRes = s.decRes := rfl
@[simp] theorem answerEmit_decCrcCalc (bytes : List Byte) : (answerEmit bytes s).decCrcCalc = s.decCrcCalc := rfl
@[simp] theorem answerEmit_decCrcRecv (bytes : List Byte) : (answerEmit bytes s).decCrcRecv = s.decCrcRecv := rfl
@[simp] theorem answerEmit_rxbuf (bytes : List Byte) : (answerEmit bytes s).rxbuf = s.rxbuf := rfl
@[simp] theorem answerEmit_ubuf (bytes : List Byte) : (answerEmit bytes s).ubuf = s.ubuf := rfl
@[simp] theorem answerEmit_ubufLen (bytes : List Byte) : (answerEmit bytes s).ubufLen = s.ubufLen := rfl
@[simp] theorem answerEmit_uMask (bytes : List Byte) : (answerEmit bytes s).uMask = s.uMask := rfl
@[simp] theorem answerEmit_uRes (bytes : List Byte) : (answerEmit bytes s).uRes = s.uRes := rfl
@[simp] theorem answerEmit_uValid (bytes : List Byte) : (answerEmit bytes s).uValid = s.uValid := rfl
@[simp] theorem answerEmit_uRaw (bytes : List Byte) : (answerEmit bytes s).uRaw = s.uRaw := rfl
@[simp] theorem answerEmit_uConsumed (bytes : List Byte) : (answerEmit bytes s).uConsumed = s.uConsumed := rfl
@[simp] theorem answerEmit_uTs (bytes : List Byte) : (answerEmit bytes s).uTs = s.uTs := rfl
@[simp] theorem answerEmit_errlog (bytes : List Byte) : (answerEmit bytes s).errlog = s.errlog := rfl
@[simp] theorem answerEmit_txout (bytes : List Byte) : (answerEmit bytes s).txout = s.txout ++ bytes := rfl
@[simp] theorem answerEmit_rsp (bytes : List Byte) : (answerEmit bytes s).rsp = some ⟨.ok, dataOf bytes.length⟩ := rfl
@[simp] theorem answerEmit_emitted (bytes : List Byte) : (answerEmit bytes s).emitted = bytes := rfl
@[simp] theorem answerEmit_port (bytes : List Byte) : (answerEmit bytes s).port = s.port := rfl
@[simp] theorem answerEmit_draws (bytes : List Byte) : (answerEmit bytes s).draws = s.draws := rfl
@[simp] theorem answerEmit_cfg (bytes : List Byte) : (answerEmit bytes s).cfg = s.cfg := rfl

/-! ### `answerPending` -/

@[simp] theorem answerPending_crcAcc (n : Nat) : (answerPending n s).crcAcc = s.crcAcc := rfl
@[simp] theorem answerPending_encState (n : Nat) : (answerPending n s).encState = s.encState := rfl
@[simp] theorem answerPending_encRem (n : Nat) : (answerPending n s).encRem = s.encRem := rfl
@[simp] theorem answerPending_encCrc (n : Nat) : (answerPending n s).encCrc = s.encCrc := rfl
@[simp] theorem answerPending_decState (n : Nat) : (answerPending n s).decState = s.decState := rfl
@[simp] theorem answerPending_decCnt (n : Nat) : (answerPending n s).decCnt = BitVec.ofNat 17 n := rfl
@[simp] theorem answerPending_decL (n : Nat) : (answerPending n s).decL = s.decL := rfl
@[simp] theorem answerPending_decOff (n : Nat) : (answerPending n s).decOff = s.decOff := rfl
@[simp] theorem answerPending_decRes (n : Nat) : (answerPending n s).decRes = s.decRes := rfl
@[simp] theorem answerPending_decCrcCalc (n : Nat) : (answerPending n s).decCrcCalc = s.decCrcCalc := rfl
@[simp] theorem answerPending_decCrcRecv (n : Nat) : (answerPending n s).decCrcRecv = s.decCrcRecv := rfl
@[simp] theorem answerPending_rxbuf (n : Nat) : (answerPending n s).rxbuf = s.rxbuf := rfl
@[simp] theorem answerPending_ubuf (n : Nat) : (answerPending n s).ubuf = s.ubuf := rfl
@[simp] theorem answerPending_ubufLen (n : Nat) : (answerPending n s).ubufLen = s.ubufLen := rfl
@[simp] theorem answerPending_uMask (n : Nat) : (answerPending n s).uMask = s.uMask := rfl
@[simp] theorem answerPending_uRes (n : Nat) : (answerPending n s).uRes = s.uRes := rfl
@[simp] theorem answerPending_uValid (n : Nat) : (answerPending n s).uValid = s.uValid := rfl
@[simp] theorem answerPending_uRaw (n : Nat) : (answerPending n s).uRaw = s.uRaw := rfl
@[simp] theorem answerPending_uConsumed (n : Nat) : (answerPending n s).uConsumed = s.uConsumed := rfl
@[simp] theorem answerPending_uTs (n : Nat) : (answerPending n s).uTs = s.uTs := rfl
@[simp] theorem answerPending_errlog (n : Nat) : (answerPending n s).errlog = s.errlog := rfl
@[simp] theorem answerPending_txout (n : Nat) : (answerPending n s).txout = s.txout := List.append_nil _
@[simp] theorem answerPending_rsp (n : Nat) : (answerPending n s).rsp = some ⟨.pending, dataOf n⟩ := rfl
@[simp] theorem answerPending_emitted (n : Nat) : (answerPending n s).emitted = [] := rfl
@[simp] theorem answerPending_port (n : Nat) : (answerPending n s).port = s.port := rfl
@[simp] theorem answerPending_draws (n : Nat) : (answerPending n s).draws = s.draws := rfl
@[simp] theorem answerPending_cfg (n : Nat) : (answerPending n s).cfg = s.cfg := rfl

/-! ### `refuse` -/

@[simp] theorem refuse_crcAcc (r : PortRefusal) : (refuse r s).crcAcc = s.crcAcc := rfl
@[simp] theorem refuse_encState (r : PortRefusal) : (refuse r s).encState = s.encState := rfl
@[simp] theorem refuse_encRem (r : PortRefusal) : (refuse r s).encRem = s.encRem := rfl
@[simp] theorem refuse_encCrc (r : PortRefusal) : (refuse r s).encCrc = s.encCrc := rfl
@[simp] theorem refuse_decState (r : PortRefusal) : (refuse r s).decState = s.decState := rfl
@[simp] theorem refuse_decCnt (r : PortRefusal) : (refuse r s).decCnt = s.decCnt := rfl
@[simp] theorem refuse_decL (r : PortRefusal) : (refuse r s).decL = s.decL := rfl
@[simp] theorem refuse_decOff (r : PortRefusal) : (refuse r s).decOff = s.decOff := rfl
@[simp] theorem refuse_decRes (r : PortRefusal) : (refuse r s).decRes = s.decRes := rfl
@[simp] theorem refuse_decCrcCalc (r : PortRefusal) : (refuse r s).decCrcCalc = s.decCrcCalc := rfl
@[simp] theorem refuse_decCrcRecv (r : PortRefusal) : (refuse r s).decCrcRecv = s.decCrcRecv := rfl
@[simp] theorem refuse_rxbuf (r : PortRefusal) : (refuse r s).rxbuf = s.rxbuf := rfl
@[simp] theorem refuse_ubuf (r : PortRefusal) : (refuse r s).ubuf = s.ubuf := rfl
@[simp] theorem refuse_ubufLen (r : PortRefusal) : (refuse r s).ubufLen = s.ubufLen := rfl
@[simp] theorem refuse_uMask (r : PortRefusal) : (refuse r s).uMask = s.uMask := rfl
@[simp] theorem refuse_uRes (r : PortRefusal) : (refuse r s).uRes = s.uRes := rfl
@[simp] theorem refuse_uValid (r : PortRefusal) : (refuse r s).uValid = s.uValid := rfl
@[simp] theorem refuse_uRaw (r : PortRefusal) : (refuse r s).uRaw = s.uRaw := rfl
@[simp] theorem refuse_uConsumed (r : PortRefusal) : (refuse r s).uConsumed = s.uConsumed := rfl
@[simp] theorem refuse_uTs (r : PortRefusal) : (refuse r s).uTs = s.uTs := rfl
@[simp] theorem refuse_errlog (r : PortRefusal) : (refuse r s).errlog = withLogBit r.logBit s.errlog := rfl
@[simp] theorem refuse_txout (r : PortRefusal) : (refuse r s).txout = s.txout := List.append_nil _
@[simp] theorem refuse_rsp (r : PortRefusal) : (refuse r s).rsp = some ⟨r.status, 0⟩ := rfl
@[simp] theorem refuse_emitted (r : PortRefusal) : (refuse r s).emitted = [] := rfl
@[simp] theorem refuse_port (r : PortRefusal) : (refuse r s).port = s.port := rfl
@[simp] theorem refuse_draws (r : PortRefusal) : (refuse r s).draws = s.draws := rfl
@[simp] theorem refuse_cfg (r : PortRefusal) : (refuse r s).cfg = s.cfg := rfl

/-! ### `clearRecord` -/

@[simp] theorem clearRecord_crcAcc : (clearRecord s).crcAcc = s.crcAcc := rfl
@[simp] theorem clearRecord_encState : (clearRecord s).encState = s.encState := rfl
@[simp] theorem clearRecord_encRem : (clearRecord s).encRem = s.encRem := rfl
@[simp] theorem clearRecord_encCrc : (clearRecord s).encCrc = s.encCrc := rfl
@[simp] theorem clearRecord_decState : (clearRecord s).decState = s.decState := rfl
@[simp] theorem clearRecord_decCnt : (clearRecord s).decCnt = s.decCnt := rfl
@[simp] theorem clearRecord_decL : (clearRecord s).decL = s.decL := rfl
@[simp] theorem clearRecord_decOff : (clearRecord s).decOff = s.decOff := rfl
@[simp] theorem clearRecord_decRes : (clearRecord s).decRes = s.decRes := rfl
@[simp] theorem clearRecord_decCrcCalc : (clearRecord s).decCrcCalc = s.decCrcCalc := rfl
@[simp] theorem clearRecord_decCrcRecv : (clearRecord s).decCrcRecv = s.decCrcRecv := rfl
@[simp] theorem clearRecord_rxbuf : (clearRecord s).rxbuf = s.rxbuf := rfl
@[simp] theorem clearRecord_ubuf : (clearRecord s).ubuf = s.ubuf := rfl
@[simp] theorem clearRecord_ubufLen : (clearRecord s).ubufLen = s.ubufLen := rfl
@[simp] theorem clearRecord_uMask : (clearRecord s).uMask = s.uMask := rfl
@[simp] theorem clearRecord_uRes : (clearRecord s).uRes = s.uRes := rfl
@[simp] theorem clearRecord_uValid : (clearRecord s).uValid = 0 := rfl
@[simp] theorem clearRecord_uRaw : (clearRecord s).uRaw = Vector.replicate 23 0 := rfl
@[simp] theorem clearRecord_uConsumed : (clearRecord s).uConsumed = 0 := rfl
@[simp] theorem clearRecord_uTs : (clearRecord s).uTs = 0 := rfl
@[simp] theorem clearRecord_errlog : (clearRecord s).errlog = s.errlog := rfl
@[simp] theorem clearRecord_txout : (clearRecord s).txout = s.txout := rfl
@[simp] theorem clearRecord_rsp : (clearRecord s).rsp = s.rsp := rfl
@[simp] theorem clearRecord_emitted : (clearRecord s).emitted = s.emitted := rfl
@[simp] theorem clearRecord_port : (clearRecord s).port = s.port := rfl
@[simp] theorem clearRecord_draws : (clearRecord s).draws = s.draws := rfl
@[simp] theorem clearRecord_cfg : (clearRecord s).cfg = s.cfg := rfl

/-! ### `clearUnpacker` -/

@[simp] theorem clearUnpacker_crcAcc : (clearUnpacker s).crcAcc = s.crcAcc := rfl
@[simp] theorem clearUnpacker_encState : (clearUnpacker s).encState = s.encState := rfl
@[simp] theorem clearUnpacker_encRem : (clearUnpacker s).encRem = s.encRem := rfl
@[simp] theorem clearUnpacker_encCrc : (clearUnpacker s).encCrc = s.encCrc := rfl
@[simp] theorem clearUnpacker_decState : (clearUnpacker s).decState = s.decState := rfl
@[simp] theorem clearUnpacker_decCnt : (clearUnpacker s).decCnt = s.decCnt := rfl
@[simp] theorem clearUnpacker_decL : (clearUnpacker s).decL = s.decL := rfl
@[simp] theorem clearUnpacker_decOff : (clearUnpacker s).decOff = s.decOff := rfl
@[simp] theorem clearUnpacker_decRes : (clearUnpacker s).decRes = s.decRes := rfl
@[simp] theorem clearUnpacker_decCrcCalc : (clearUnpacker s).decCrcCalc = s.decCrcCalc := rfl
@[simp] theorem clearUnpacker_decCrcRecv : (clearUnpacker s).decCrcRecv = s.decCrcRecv := rfl
@[simp] theorem clearUnpacker_rxbuf : (clearUnpacker s).rxbuf = s.rxbuf := rfl
@[simp] theorem clearUnpacker_ubuf : (clearUnpacker s).ubuf = s.ubuf := rfl
@[simp] theorem clearUnpacker_ubufLen : (clearUnpacker s).ubufLen = 0 := rfl
@[simp] theorem clearUnpacker_uMask : (clearUnpacker s).uMask = 0 := rfl
@[simp] theorem clearUnpacker_uRes : (clearUnpacker s).uRes = .none := rfl
@[simp] theorem clearUnpacker_uValid : (clearUnpacker s).uValid = 0 := rfl
@[simp] theorem clearUnpacker_uRaw : (clearUnpacker s).uRaw = Vector.replicate 23 0 := rfl
@[simp] theorem clearUnpacker_uConsumed : (clearUnpacker s).uConsumed = 0 := rfl
@[simp] theorem clearUnpacker_uTs : (clearUnpacker s).uTs = 0 := rfl
@[simp] theorem clearUnpacker_errlog : (clearUnpacker s).errlog = s.errlog := rfl
@[simp] theorem clearUnpacker_txout : (clearUnpacker s).txout = s.txout := rfl
@[simp] theorem clearUnpacker_rsp : (clearUnpacker s).rsp = s.rsp := rfl
@[simp] theorem clearUnpacker_emitted : (clearUnpacker s).emitted = s.emitted := rfl
@[simp] theorem clearUnpacker_port : (clearUnpacker s).port = s.port := rfl
@[simp] theorem clearUnpacker_draws : (clearUnpacker s).draws = s.draws := rfl
@[simp] theorem clearUnpacker_cfg : (clearUnpacker s).cfg = s.cfg := rfl

/-! ### `newAttempt` -/

@[simp] theorem newAttempt_crcAcc : (newAttempt s).crcAcc = s.crcAcc := rfl
@[simp] theorem newAttempt_encState : (newAttempt s).encState = s.encState := rfl
@[simp] theorem newAttempt_encRem : (newAttempt s).encRem = s.encRem := rfl
@[simp] theorem newAttempt_encCrc : (newAttempt s).encCrc = s.encCrc := rfl
@[simp] theorem newAttempt_decState : (newAttempt s).decState = s.decState := rfl
@[simp] theorem newAttempt_decCnt : (newAttempt s).decCnt = s.decCnt := rfl
@[simp] theorem newAttempt_decL : (newAttempt s).decL = 0 := rfl
@[simp] theorem newAttempt_decOff : (newAttempt s).decOff = s.decOff := rfl
@[simp] theorem newAttempt_decRes : (newAttempt s).decRes = .none := rfl
@[simp] theorem newAttempt_decCrcCalc : (newAttempt s).decCrcCalc = 0 := rfl
@[simp] theorem newAttempt_decCrcRecv : (newAttempt s).decCrcRecv = 0 := rfl
@[simp] theorem newAttempt_rxbuf : (newAttempt s).rxbuf = s.rxbuf := rfl
@[simp] theorem newAttempt_ubuf : (newAttempt s).ubuf = s.ubuf := rfl
@[simp] theorem newAttempt_ubufLen : (newAttempt s).ubufLen = s.ubufLen := rfl
@[simp] theorem newAttempt_uMask : (newAttempt s).uMask = s.uMask := rfl
@[simp] theorem newAttempt_uRes : (newAttempt s).uRes = s.uRes := rfl
@[simp] theorem newAttempt_uValid : (newAttempt s).uValid = s.uValid := rfl
@[simp] theorem newAttempt_uRaw : (newAttempt s).uRaw = s.uRaw := rfl
@[simp] theorem newAttempt_uConsumed : (newAttempt s).uConsumed = s.uConsumed := rfl
@[simp] theorem newAttempt_uTs : (newAttempt s).uTs = s.uTs := rfl
@[simp] theorem newAttempt_errlog : (newAttempt s).errlog = s.errlog := rfl
@[simp] theorem newAttempt_txout : (newAttempt s).txout = s.txout := rfl
@[simp] theorem newAttempt_rsp : (newAttempt s).rsp = s.rsp := rfl
@[simp] theorem newAttempt_emitted : (newAttempt s).emitted = s.emitted := rfl
@[simp] theorem newAttempt_port : (newAttempt s).port = s.port := rfl
@[simp] theorem newAttempt_draws : (newAttempt s).draws = s.draws := rfl
@[simp] theorem newAttempt_cfg : (newAttempt s).cfg = s.cfg := rfl

/-! ### `dropFrame` -/

@[simp] theorem dropFrame_crcAcc : (dropFrame s).crcAcc = s.crcAcc := rfl
@[simp] theorem dropFrame_encState : (dropFrame s).encState = s.encState := rfl
@[simp] theorem dropFrame_encRem : (dropFrame s).encRem = s.encRem := rfl
@[simp] theorem dropFrame_encCrc : (dropFrame s).encCrc = s.encCrc := rfl
@[simp] theorem dropFrame_decState : (dropFrame s).decState = .hdr := rfl
@[simp] theorem dropFrame_decCnt : (dropFrame s).decCnt = 0 := rfl
@[simp] theorem dropFrame_decL : (dropFrame s).decL = 0 := rfl
@[simp] theorem dropFrame_decOff : (dropFrame s).decOff = 2 := rfl
@[simp] theorem dropFrame_decRes : (dropFrame s).decRes = .none := rfl
@[simp] theorem dropFrame_decCrcCalc : (dropFrame s).decCrcCalc = 0 := rfl
@[simp] theorem dropFrame_decCrcRecv : (dropFrame s).decCrcRecv = 0 := rfl
@[simp] theorem dropFrame_rxbuf : (dropFrame s).rxbuf = s.rxbuf := rfl
@[simp] theorem dropFrame_ubuf : (dropFrame s).ubuf = s.ubuf := rfl
@[simp] theorem dropFrame_ubufLen : (dropFrame s).ubufLen = s.ubufLen := rfl
@[simp] theorem dropFrame_uMask : (dropFrame s).uMask = s.uMask := rfl
@[simp] theorem dropFrame_uRes : (dropFrame s).uRes = s.uRes := rfl
@[simp] theorem dropFrame_uValid : (dropFrame s).uValid = s.uValid := rfl
@[simp] theorem dropFrame_uRaw : (dropFrame s).uRaw = s.uRaw := rfl
@[simp] theorem dropFrame_uConsumed : (dropFrame s).uConsumed = s.uConsumed := rfl
@[simp] theorem dropFrame_uTs : (dropFrame s).uTs = s.uTs := rfl
@[simp] theorem dropFrame_errlog : (dropFrame s).errlog = s.errlog := rfl
@[simp] theorem dropFrame_txout : (dropFrame s).txout = s.txout := rfl
@[simp] theorem dropFrame_rsp : (dropFrame s).rsp = s.rsp := rfl
@[simp] theorem dropFrame_emitted : (dropFrame s).emitted = s.emitted := rfl
@[simp] theorem dropFrame_port : (dropFrame s).port = s.port := rfl
@[simp] theorem dropFrame_draws : (dropFrame s).draws = s.draws := rfl
@[simp] theorem dropFrame_cfg : (dropFrame s).cfg = s.cfg := rfl

/-! ### `holdRecord` -/

@[simp] theorem holdRecord_crcAcc (raw : Vector Word 23) (valid : BitVec 23) (consumed : Nat) : (holdRecord raw valid consumed s).crcAcc = s.crcAcc := rfl
@[simp] theorem holdRecord_encState (raw : Vector Word 23) (valid : BitVec 23) (consumed : Nat) : (holdRecord raw valid consumed s).encState = s.encState := rfl
@[simp] theorem holdRecord_encRem (raw : Vector Word 23) (valid : BitVec 23) (consumed : Nat) : (holdRecord raw valid consumed s).encRem = s.encRem := rfl
@[simp] theorem holdRecord_encCrc (raw : Vector Word 23) (valid : BitVec 23) (consumed : Nat) : (holdRecord raw valid consumed s).encCrc = s.encCrc := rfl
@[simp] theorem holdRecord_decState (raw : Vector Word 23) (valid : BitVec 23) (consumed : Nat) : (holdRecord raw valid consumed s).decState = s.decState := rfl
@[simp] theorem holdRecord_decCnt (raw : Vector Word 23) (valid : BitVec 23) (consumed : Nat) : (holdRecord raw valid consumed s).decCnt = s.decCnt := rfl
@[simp] theorem holdRecord_decL (raw : Vector Word 23) (valid : BitVec 23) (consumed : Nat) : (holdRecord raw valid consumed s).decL = s.decL := rfl
@[simp] theorem holdRecord_decOff (raw : Vector Word 23) (valid : BitVec 23) (consumed : Nat) : (holdRecord raw valid consumed s).decOff = s.decOff := rfl
@[simp] theorem holdRecord_decRes (raw : Vector Word 23) (valid : BitVec 23) (consumed : Nat) : (holdRecord raw valid consumed s).decRes = s.decRes := rfl
@[simp] theorem holdRecord_decCrcCalc (raw : Vector Word 23) (valid : BitVec 23) (consumed : Nat) : (holdRecord raw valid consumed s).decCrcCalc = s.decCrcCalc := rfl
@[simp] theorem holdRecord_decCrcRecv (raw : Vector Word 23) (valid : BitVec 23) (consumed : Nat) : (holdRecord raw valid consumed s).decCrcRecv = s.decCrcRecv := rfl
@[simp] theorem holdRecord_rxbuf (raw : Vector Word 23) (valid : BitVec 23) (consumed : Nat) : (holdRecord raw valid consumed s).rxbuf = s.rxbuf := rfl
@[simp] theorem holdRecord_ubuf (raw : Vector Word 23) (valid : BitVec 23) (consumed : Nat) : (holdRecord raw valid consumed s).ubuf = s.ubuf := rfl
@[simp] theorem holdRecord_ubufLen (raw : Vector Word 23) (valid : BitVec 23) (consumed : Nat) : (holdRecord raw valid consumed s).ubufLen = s.ubufLen := rfl
@[simp] theorem holdRecord_uMask (raw : Vector Word 23) (valid : BitVec 23) (consumed : Nat) : (holdRecord raw valid consumed s).uMask = s.uMask := rfl
@[simp] theorem holdRecord_uRes (raw : Vector Word 23) (valid : BitVec 23) (consumed : Nat) : (holdRecord raw valid consumed s).uRes = .ok := rfl
@[simp] theorem holdRecord_uValid (raw : Vector Word 23) (valid : BitVec 23) (consumed : Nat) : (holdRecord raw valid consumed s).uValid = valid := rfl
@[simp] theorem holdRecord_uRaw (raw : Vector Word 23) (valid : BitVec 23) (consumed : Nat) : (holdRecord raw valid consumed s).uRaw = raw := rfl
@[simp] theorem holdRecord_uConsumed (raw : Vector Word 23) (valid : BitVec 23) (consumed : Nat) : (holdRecord raw valid consumed s).uConsumed = BitVec.ofNat 7 consumed := rfl
@[simp] theorem holdRecord_uTs (raw : Vector Word 23) (valid : BitVec 23) (consumed : Nat) : (holdRecord raw valid consumed s).uTs = (Config.timeIn s.cfg.tsW s.draws).toNat := rfl
@[simp] theorem holdRecord_errlog (raw : Vector Word 23) (valid : BitVec 23) (consumed : Nat) : (holdRecord raw valid consumed s).errlog = s.errlog := rfl
@[simp] theorem holdRecord_txout (raw : Vector Word 23) (valid : BitVec 23) (consumed : Nat) : (holdRecord raw valid consumed s).txout = s.txout := List.append_nil _
@[simp] theorem holdRecord_rsp (raw : Vector Word 23) (valid : BitVec 23) (consumed : Nat) : (holdRecord raw valid consumed s).rsp = some ⟨.ok, dataOf consumed⟩ := rfl
@[simp] theorem holdRecord_emitted (raw : Vector Word 23) (valid : BitVec 23) (consumed : Nat) : (holdRecord raw valid consumed s).emitted = [] := rfl
@[simp] theorem holdRecord_port (raw : Vector Word 23) (valid : BitVec 23) (consumed : Nat) : (holdRecord raw valid consumed s).port = s.port := rfl
@[simp] theorem holdRecord_draws (raw : Vector Word 23) (valid : BitVec 23) (consumed : Nat) : (holdRecord raw valid consumed s).draws = s.draws + 1 := rfl
@[simp] theorem holdRecord_cfg (raw : Vector Word 23) (valid : BitVec 23) (consumed : Nat) : (holdRecord raw valid consumed s).cfg = s.cfg := rfl

/-! ### `present` -/

@[simp] theorem present_crcAcc (e : PortEvent) : (present e s).crcAcc = s.crcAcc := rfl
@[simp] theorem present_encState (e : PortEvent) : (present e s).encState = s.encState := rfl
@[simp] theorem present_encRem (e : PortEvent) : (present e s).encRem = s.encRem := rfl
@[simp] theorem present_encCrc (e : PortEvent) : (present e s).encCrc = s.encCrc := rfl
@[simp] theorem present_decState (e : PortEvent) : (present e s).decState = s.decState := rfl
@[simp] theorem present_decCnt (e : PortEvent) : (present e s).decCnt = s.decCnt := rfl
@[simp] theorem present_decL (e : PortEvent) : (present e s).decL = s.decL := rfl
@[simp] theorem present_decOff (e : PortEvent) : (present e s).decOff = s.decOff := rfl
@[simp] theorem present_decRes (e : PortEvent) : (present e s).decRes = s.decRes := rfl
@[simp] theorem present_decCrcCalc (e : PortEvent) : (present e s).decCrcCalc = s.decCrcCalc := rfl
@[simp] theorem present_decCrcRecv (e : PortEvent) : (present e s).decCrcRecv = s.decCrcRecv := rfl
@[simp] theorem present_rxbuf (e : PortEvent) : (present e s).rxbuf = s.rxbuf := rfl
@[simp] theorem present_ubuf (e : PortEvent) : (present e s).ubuf = s.ubuf := rfl
@[simp] theorem present_ubufLen (e : PortEvent) : (present e s).ubufLen = s.ubufLen := rfl
@[simp] theorem present_uMask (e : PortEvent) : (present e s).uMask = s.uMask := rfl
@[simp] theorem present_uRes (e : PortEvent) : (present e s).uRes = s.uRes := rfl
@[simp] theorem present_uValid (e : PortEvent) : (present e s).uValid = s.uValid := rfl
@[simp] theorem present_uRaw (e : PortEvent) : (present e s).uRaw = s.uRaw := rfl
@[simp] theorem present_uConsumed (e : PortEvent) : (present e s).uConsumed = s.uConsumed := rfl
@[simp] theorem present_uTs (e : PortEvent) : (present e s).uTs = s.uTs := rfl
@[simp] theorem present_errlog (e : PortEvent) : (present e s).errlog = s.errlog := rfl
@[simp] theorem present_txout (e : PortEvent) : (present e s).txout = s.txout := rfl
@[simp] theorem present_rsp (e : PortEvent) : (present e s).rsp = s.rsp := rfl
@[simp] theorem present_emitted (e : PortEvent) : (present e s).emitted = s.emitted := rfl
@[simp] theorem present_port (e : PortEvent) : (present e s).port = e :: s.port := rfl
@[simp] theorem present_draws (e : PortEvent) : (present e s).draws = s.draws := rfl
@[simp] theorem present_cfg (e : PortEvent) : (present e s).cfg = s.cfg := rfl

/-! ### `resetBlock` -/

@[simp] theorem resetBlock_crcAcc : (resetBlock s).crcAcc = 0 := rfl
@[simp] theorem resetBlock_encState : (resetBlock s).encState = .idle := rfl
@[simp] theorem resetBlock_encRem : (resetBlock s).encRem = 0 := rfl
@[simp] theorem resetBlock_encCrc : (resetBlock s).encCrc = 0 := rfl
@[simp] theorem resetBlock_decState : (resetBlock s).decState = .hdr := rfl
@[simp] theorem resetBlock_decCnt : (resetBlock s).decCnt = 0 := rfl
@[simp] theorem resetBlock_decL : (resetBlock s).decL = 0 := rfl
@[simp] theorem resetBlock_decOff : (resetBlock s).decOff = 2 := rfl
@[simp] theorem resetBlock_decRes : (resetBlock s).decRes = .none := rfl
@[simp] theorem resetBlock_decCrcCalc : (resetBlock s).decCrcCalc = 0 := rfl
@[simp] theorem resetBlock_decCrcRecv : (resetBlock s).decCrcRecv = 0 := rfl
@[simp] theorem resetBlock_rxbuf : (resetBlock s).rxbuf = s.rxbuf := rfl
@[simp] theorem resetBlock_ubuf : (resetBlock s).ubuf = s.ubuf := rfl
@[simp] theorem resetBlock_ubufLen : (resetBlock s).ubufLen = 0 := rfl
@[simp] theorem resetBlock_uMask : (resetBlock s).uMask = 0 := rfl
@[simp] theorem resetBlock_uRes : (resetBlock s).uRes = .none := rfl
@[simp] theorem resetBlock_uValid : (resetBlock s).uValid = 0 := rfl
@[simp] theorem resetBlock_uRaw : (resetBlock s).uRaw = Vector.replicate 23 0 := rfl
@[simp] theorem resetBlock_uConsumed : (resetBlock s).uConsumed = 0 := rfl
@[simp] theorem resetBlock_uTs : (resetBlock s).uTs = 0 := rfl
@[simp] theorem resetBlock_errlog : (resetBlock s).errlog = 0 := rfl
@[simp] theorem resetBlock_txout : (resetBlock s).txout = s.txout := rfl
@[simp] theorem resetBlock_rsp : (resetBlock s).rsp = s.rsp := rfl
@[simp] theorem resetBlock_emitted : (resetBlock s).emitted = s.emitted := rfl
@[simp] theorem resetBlock_port : (resetBlock s).port = s.port := rfl
@[simp] theorem resetBlock_draws : (resetBlock s).draws = s.draws := rfl
@[simp] theorem resetBlock_cfg : (resetBlock s).cfg = s.cfg := rfl

/-! ### `resetInput` -/

@[simp] theorem resetInput_crcAcc : (resetInput s).crcAcc = 0 := rfl
@[simp] theorem resetInput_encState : (resetInput s).encState = .idle := rfl
@[simp] theorem resetInput_encRem : (resetInput s).encRem = 0 := rfl
@[simp] theorem resetInput_encCrc : (resetInput s).encCrc = 0 := rfl
@[simp] theorem resetInput_decState : (resetInput s).decState = .hdr := rfl
@[simp] theorem resetInput_decCnt : (resetInput s).decCnt = 0 := rfl
@[simp] theorem resetInput_decL : (resetInput s).decL = 0 := rfl
@[simp] theorem resetInput_decOff : (resetInput s).decOff = 2 := rfl
@[simp] theorem resetInput_decRes : (resetInput s).decRes = .none := rfl
@[simp] theorem resetInput_decCrcCalc : (resetInput s).decCrcCalc = 0 := rfl
@[simp] theorem resetInput_decCrcRecv : (resetInput s).decCrcRecv = 0 := rfl
@[simp] theorem resetInput_rxbuf : (resetInput s).rxbuf = s.rxbuf := rfl
@[simp] theorem resetInput_ubuf : (resetInput s).ubuf = s.ubuf := rfl
@[simp] theorem resetInput_ubufLen : (resetInput s).ubufLen = 0 := rfl
@[simp] theorem resetInput_uMask : (resetInput s).uMask = 0 := rfl
@[simp] theorem resetInput_uRes : (resetInput s).uRes = .none := rfl
@[simp] theorem resetInput_uValid : (resetInput s).uValid = 0 := rfl
@[simp] theorem resetInput_uRaw : (resetInput s).uRaw = Vector.replicate 23 0 := rfl
@[simp] theorem resetInput_uConsumed : (resetInput s).uConsumed = 0 := rfl
@[simp] theorem resetInput_uTs : (resetInput s).uTs = 0 := rfl
@[simp] theorem resetInput_errlog : (resetInput s).errlog = 0 := rfl
@[simp] theorem resetInput_txout : (resetInput s).txout = s.txout := rfl
@[simp] theorem resetInput_rsp : (resetInput s).rsp = none := rfl
@[simp] theorem resetInput_emitted : (resetInput s).emitted = [] := rfl
@[simp] theorem resetInput_port : (resetInput s).port = s.port := rfl
@[simp] theorem resetInput_draws : (resetInput s).draws = s.draws := rfl
@[simp] theorem resetInput_cfg : (resetInput s).cfg = s.cfg := rfl

/-! ### `raise`: an error enters as R260 says. What all five leave alone, then what each changes. -/

@[simp] theorem raise_crcAcc (e : ProtoError) (info : Word) : (raise e info s).crcAcc = s.crcAcc := by cases e <;> rfl
@[simp] theorem raise_encState (e : ProtoError) (info : Word) : (raise e info s).encState = s.encState := by cases e <;> rfl
@[simp] theorem raise_encRem (e : ProtoError) (info : Word) : (raise e info s).encRem = s.encRem := by cases e <;> rfl
@[simp] theorem raise_encCrc (e : ProtoError) (info : Word) : (raise e info s).encCrc = s.encCrc := by cases e <;> rfl
@[simp] theorem raise_decL (e : ProtoError) (info : Word) : (raise e info s).decL = s.decL := by cases e <;> rfl
@[simp] theorem raise_decOff (e : ProtoError) (info : Word) : (raise e info s).decOff = s.decOff := by cases e <;> rfl
@[simp] theorem raise_decCrcCalc (e : ProtoError) (info : Word) : (raise e info s).decCrcCalc = s.decCrcCalc := by cases e <;> rfl
@[simp] theorem raise_decCrcRecv (e : ProtoError) (info : Word) : (raise e info s).decCrcRecv = s.decCrcRecv := by cases e <;> rfl
@[simp] theorem raise_rxbuf (e : ProtoError) (info : Word) : (raise e info s).rxbuf = s.rxbuf := by cases e <;> rfl
@[simp] theorem raise_ubuf (e : ProtoError) (info : Word) : (raise e info s).ubuf = s.ubuf := by cases e <;> rfl
@[simp] theorem raise_ubufLen (e : ProtoError) (info : Word) : (raise e info s).ubufLen = s.ubufLen := by cases e <;> rfl
@[simp] theorem raise_uMask (e : ProtoError) (info : Word) : (raise e info s).uMask = s.uMask := by cases e <;> rfl
@[simp] theorem raise_errlog (e : ProtoError) (info : Word) : (raise e info s).errlog = withLogBit e.logBit s.errlog := by cases e <;> rfl
@[simp] theorem raise_txout (e : ProtoError) (info : Word) : (raise e info s).txout = s.txout := by cases e <;> exact List.append_nil _
@[simp] theorem raise_rsp (e : ProtoError) (info : Word) : (raise e info s).rsp = some ⟨e.status, info⟩ := by cases e <;> rfl
@[simp] theorem raise_emitted (e : ProtoError) (info : Word) : (raise e info s).emitted = [] := by cases e <;> rfl
@[simp] theorem raise_port (e : ProtoError) (info : Word) : (raise e info s).port = s.port := by cases e <;> rfl
@[simp] theorem raise_draws (e : ProtoError) (info : Word) : (raise e info s).draws = s.draws := by cases e <;> rfl
@[simp] theorem raise_cfg (e : ProtoError) (info : Word) : (raise e info s).cfg = s.cfg := by cases e <;> rfl

@[simp] theorem raise_unsupportedHeader_decState (info : Word) : (raise .unsupportedHeader info s).decState = .hdr := rfl
@[simp] theorem raise_unsupportedHeader_decCnt (info : Word) : (raise .unsupportedHeader info s).decCnt = 0 := rfl
@[simp] theorem raise_unsupportedHeader_decRes (info : Word) : (raise .unsupportedHeader info s).decRes = .unsupportedHeader := rfl
@[simp] theorem raise_unsupportedHeader_uValid (info : Word) : (raise .unsupportedHeader info s).uValid = s.uValid := rfl
@[simp] theorem raise_unsupportedHeader_uRaw (info : Word) : (raise .unsupportedHeader info s).uRaw = s.uRaw := rfl
@[simp] theorem raise_unsupportedHeader_uConsumed (info : Word) : (raise .unsupportedHeader info s).uConsumed = s.uConsumed := rfl
@[simp] theorem raise_unsupportedHeader_uTs (info : Word) : (raise .unsupportedHeader info s).uTs = s.uTs := rfl
@[simp] theorem raise_unsupportedHeader_uRes (info : Word) : (raise .unsupportedHeader info s).uRes = s.uRes := rfl

@[simp] theorem raise_badTerminator_decState (info : Word) : (raise .badTerminator info s).decState = .hdr := rfl
@[simp] theorem raise_badTerminator_decCnt (info : Word) : (raise .badTerminator info s).decCnt = 0 := rfl
@[simp] theorem raise_badTerminator_decRes (info : Word) : (raise .badTerminator info s).decRes = .badTerminator := rfl
@[simp] theorem raise_badTerminator_uValid (info : Word) : (raise .badTerminator info s).uValid = s.uValid := rfl
@[simp] theorem raise_badTerminator_uRaw (info : Word) : (raise .badTerminator info s).uRaw = s.uRaw := rfl
@[simp] theorem raise_badTerminator_uConsumed (info : Word) : (raise .badTerminator info s).uConsumed = s.uConsumed := rfl
@[simp] theorem raise_badTerminator_uTs (info : Word) : (raise .badTerminator info s).uTs = s.uTs := rfl
@[simp] theorem raise_badTerminator_uRes (info : Word) : (raise .badTerminator info s).uRes = s.uRes := rfl

@[simp] theorem raise_checksumMismatch_decState (info : Word) : (raise .checksumMismatch info s).decState = .hdr := rfl
@[simp] theorem raise_checksumMismatch_decCnt (info : Word) : (raise .checksumMismatch info s).decCnt = 0 := rfl
@[simp] theorem raise_checksumMismatch_decRes (info : Word) : (raise .checksumMismatch info s).decRes = .checksumMismatch := rfl
@[simp] theorem raise_checksumMismatch_uValid (info : Word) : (raise .checksumMismatch info s).uValid = s.uValid := rfl
@[simp] theorem raise_checksumMismatch_uRaw (info : Word) : (raise .checksumMismatch info s).uRaw = s.uRaw := rfl
@[simp] theorem raise_checksumMismatch_uConsumed (info : Word) : (raise .checksumMismatch info s).uConsumed = s.uConsumed := rfl
@[simp] theorem raise_checksumMismatch_uTs (info : Word) : (raise .checksumMismatch info s).uTs = s.uTs := rfl
@[simp] theorem raise_checksumMismatch_uRes (info : Word) : (raise .checksumMismatch info s).uRes = s.uRes := rfl

@[simp] theorem raise_truncatedPayload_decState (info : Word) : (raise .truncatedPayload info s).decState = s.decState := rfl
@[simp] theorem raise_truncatedPayload_decCnt (info : Word) : (raise .truncatedPayload info s).decCnt = s.decCnt := rfl
@[simp] theorem raise_truncatedPayload_decRes (info : Word) : (raise .truncatedPayload info s).decRes = s.decRes := rfl
@[simp] theorem raise_truncatedPayload_uValid (info : Word) : (raise .truncatedPayload info s).uValid = 0 := rfl
@[simp] theorem raise_truncatedPayload_uRaw (info : Word) : (raise .truncatedPayload info s).uRaw = Vector.replicate 23 0 := rfl
@[simp] theorem raise_truncatedPayload_uConsumed (info : Word) : (raise .truncatedPayload info s).uConsumed = 0 := rfl
@[simp] theorem raise_truncatedPayload_uTs (info : Word) : (raise .truncatedPayload info s).uTs = 0 := rfl
@[simp] theorem raise_truncatedPayload_uRes (info : Word) : (raise .truncatedPayload info s).uRes = .truncatedPayload := rfl

@[simp] theorem raise_schemaExhausted_decState (info : Word) : (raise .schemaExhausted info s).decState = s.decState := rfl
@[simp] theorem raise_schemaExhausted_decCnt (info : Word) : (raise .schemaExhausted info s).decCnt = s.decCnt := rfl
@[simp] theorem raise_schemaExhausted_decRes (info : Word) : (raise .schemaExhausted info s).decRes = s.decRes := rfl
@[simp] theorem raise_schemaExhausted_uValid (info : Word) : (raise .schemaExhausted info s).uValid = 0 := rfl
@[simp] theorem raise_schemaExhausted_uRaw (info : Word) : (raise .schemaExhausted info s).uRaw = Vector.replicate 23 0 := rfl
@[simp] theorem raise_schemaExhausted_uConsumed (info : Word) : (raise .schemaExhausted info s).uConsumed = 0 := rfl
@[simp] theorem raise_schemaExhausted_uTs (info : Word) : (raise .schemaExhausted info s).uTs = 0 := rfl
@[simp] theorem raise_schemaExhausted_uRes (info : Word) : (raise .schemaExhausted info s).uRes = .schemaExhausted := rfl

end Sys2Proof.Machine
end

