-- ==== Sys2Proof/Laws/Ops.lean ====
section
/-! SUPPORT. For each shared operation, one lemma that says everything it can do: proofs cite these instead of unfolding the
operation. -/

namespace Sys2Proof.Machine

/-- An operation that may touch a buffer goes on exactly when its accesses exist. -/
@[simp] theorem orFault_eq_next {o : Option State} {t : State} : orFault o = .next t ↔ o = some t := by
  cases o <;> simp [orFault]

@[simp] theorem orFault_some (t : State) : orFault (some t) = .next t := rfl

@[simp] theorem orFault_none : orFault none = .fault .outsideBuffer := rfl

/-- Nothing that goes through `orFault` is ever refused. -/
theorem orFault_ne_refused {o : Option State} {r : Refusal} : orFault o ≠ .refused r := by
  cases o <;> simp [orFault]

/-- The next event is the head of the port, which it leaves. -/
theorem takeEvent_eq_some {s t : State} {e : PortEvent} :
    takeEvent s = some (e, t) ↔ ∃ rest, s.port = e :: rest ∧ t = { s with port := rest } := by
  unfold takeEvent
  cases h : s.port with
  | nil => simp
  | cons x rest =>
    simp only [Option.some.injEq, Prod.mk.injEq, List.cons.injEq]
    constructor
    · rintro ⟨rfl, rfl⟩; exact ⟨rest, ⟨rfl, rfl⟩, rfl⟩
    · rintro ⟨r, ⟨rfl, rfl⟩, rfl⟩; exact ⟨rfl, rfl⟩

@[simp] theorem takeEvent_present (e : PortEvent) (s : State) : takeEvent (present e s) = some (e, s) := rfl

/-- A step performs the event presented. -/
@[simp] theorem step_present (e : PortEvent) (s : State) : step (present e s) = runEvent e s := rfl

/-- Everything a step that goes on can be: nothing was presented, the reset input came, a malformed command word was refused,
or the decoded instruction was executed. -/
theorem step_cases {s t : State} (h : step s = .next t) :
    (s.port = [] ∧ t = s)
      ∨ ∃ e rest, s.port = e :: rest ∧
          ((e = .resetInput ∧ t = resetInput { s with port := rest })
            ∨ ∃ item, e = .item item ∧
                ((∃ err, decode (framePos s) item = .error err ∧ t = refuse .illegalOp { s with port := rest })
                  ∨ ∃ i, decode (framePos s) item = .ok i ∧ exec i { s with port := rest } = .next t)) := by
  unfold step takeEvent at h
  cases hp : s.port with
  | nil => rw [hp] at h; exact .inl ⟨rfl, by simpa using h.symm⟩
  | cons e rest =>
    rw [hp] at h
    refine .inr ⟨e, rest, rfl, ?_⟩
    cases e with
    | resetInput => exact .inl ⟨rfl, by simpa [runEvent] using h.symm⟩
    | item item =>
      refine .inr ⟨item, rfl, ?_⟩
      change runItem item { s with port := rest } = .next t at h
      unfold runItem at h
      change (match decode (framePos s) item with
        | .ok i => exec i { s with port := rest }
        | .error _ => .next (refuse .illegalOp { s with port := rest })) = .next t at h
      cases hd : decode (framePos s) item with
      | ok i => rw [hd] at h; exact .inr ⟨i, rfl, h⟩
      | error err => rw [hd] at h; exact .inl ⟨err, rfl, by simpa using h.symm⟩

/-- A byte of the frame in progress lands where it exists, and only `RXBUF` changes. -/
theorem storeRx_eq_some {a : Nat} {b : Byte} {s t : State} :
    storeRx a b s = some t ↔ a < s.cfg.rxbufSize ∧ t = { s with rxbuf := s.rxbuf.write a b } := by
  simp only [storeRx, Option.map_eq_some_iff, writeByte_eq_some]
  constructor
  · rintro ⟨m, ⟨h, rfl⟩, rfl⟩; exact ⟨h, rfl⟩
  · rintro ⟨h, rfl⟩; exact ⟨_, ⟨h, rfl⟩, rfl⟩

/-- The decoder's buffer holds at least the largest short-form frame (R13). -/
theorem rxbufSize_ge (c : Config) : 260 ≤ c.rxbufSize := by
  unfold Config.rxbufSize; split <;> omega

/-- Case HDR of R165, whole: the header byte of either form is stored, any other byte is `UnsupportedHeader`. -/
theorem decHeader_eq (b : Byte) (s : State) :
    decHeader b s = some
      (if b = 0x02#8 then
        answerPending 1 { newAttempt s with rxbuf := s.rxbuf.write 0 b, decOff := 2, decState := .len }
       else if b = 0x03#8 ∧ s.cfg.longDecode = true then
        answerPending 1 { newAttempt s with rxbuf := s.rxbuf.write 0 b, decOff := 3, decState := .lenh }
       else raise .unsupportedHeader (zext8 b) (newAttempt s)) := by
  have h := rxbufSize_ge s.cfg
  have h0 : storeRx 0 b (newAttempt s) = some { newAttempt s with rxbuf := s.rxbuf.write 0 b } :=
    storeRx_eq_some.2 ⟨by rw [newAttempt_cfg]; omega, rfl⟩
  unfold decHeader
  simp only [h0, Option.map_some]
  split_ifs <;> rfl

/-- Case LEN of R165, whole. -/
theorem decLen_eq (b : Byte) (s : State) :
    decLen b s = some (answerPending 2
      { s with rxbuf := s.rxbuf.write 1 b, decL := b.setWidth 16, decState := .acc }) := by
  have h := rxbufSize_ge s.cfg
  have h1 : storeRx 1 b s = some { s with rxbuf := s.rxbuf.write 1 b } := storeRx_eq_some.2 ⟨by omega, rfl⟩
  rw [decLen, h1]; rfl

/-- Case LENH of R165, whole. -/
theorem decLenHigh_eq (b : Byte) (s : State) :
    decLenHigh b s = some (answerPending 2
      { s with rxbuf := s.rxbuf.write 1 b, decL := b.setWidth 16 <<< 8, decState := .lenl }) := by
  have h := rxbufSize_ge s.cfg
  have h1 : storeRx 1 b s = some { s with rxbuf := s.rxbuf.write 1 b } := storeRx_eq_some.2 ⟨by omega, rfl⟩
  rw [decLenHigh, h1]; rfl

/-- Case LENL of R165, whole. -/
theorem decLenLow_eq (b : Byte) (s : State) :
    decLenLow b s = some (answerPending 3
      { s with rxbuf := s.rxbuf.write 2 b, decL := s.decL + b.setWidth 16, decState := .acc }) := by
  have h := rxbufSize_ge s.cfg
  have h1 : storeRx 2 b s = some { s with rxbuf := s.rxbuf.write 2 b } := storeRx_eq_some.2 ⟨by omega, rfl⟩
  rw [decLenLow, h1]; rfl

/-- The check of a complete frame, whole: what the two registers and the result become. -/
theorem decCheck_eq_some {s t : State} :
    decCheck s = some t ↔
      s.decOff.toNat + s.decL.toNat + 1 < s.cfg.rxbufSize ∧
        t = (let computed := crc16 (s.rxbuf.slice s.decOff.toNat s.decL.toNat)
             let recv := be16 (s.rxbuf.read (s.decOff.toNat + s.decL.toNat))
               (s.rxbuf.read (s.decOff.toNat + s.decL.toNat + 1))
             let u := { s with decState := .hdr, decCnt := 0, decCrcCalc := computed, decCrcRecv := recv }
             if computed = recv then answer .frameOk (zext16 s.decL) [] { u with decRes := .ok }
             else raise .checksumMismatch (computed ++ recv) u) := by
  unfold decCheck
  simp only [Option.bind_eq_some_iff, Option.map_eq_some_iff, readRun_eq_some, readHalf_eq_some]
  constructor
  · rintro ⟨p, ⟨-, rfl⟩, v, ⟨hv, rfl⟩, rfl⟩; exact ⟨hv, rfl⟩
  · rintro ⟨hv, rfl⟩; exact ⟨_, ⟨by omega, rfl⟩, _, ⟨hv, rfl⟩, rfl⟩

/-- Case ACC of R165, whole: the byte is stored; below the total the count goes up; at the total the terminator is judged,
then the checksum. -/
theorem decAcc_eq_some {b : Byte} {s t : State} :
    decAcc b s = some t ↔
      s.decCnt.toNat < s.cfg.rxbufSize ∧
        ((s.decCnt.toNat + 1 < frameTotal s ∧
            t = answerPending (s.decCnt.toNat + 1) { s with rxbuf := s.rxbuf.write s.decCnt.toNat b })
          ∨ (frameTotal s ≤ s.decCnt.toNat + 1 ∧ b ≠ 0x03#8 ∧
            t = raise .badTerminator (zext8 b) { s with rxbuf := s.rxbuf.write s.decCnt.toNat b })
          ∨ (frameTotal s ≤ s.decCnt.toNat + 1 ∧ b = 0x03#8 ∧
            decCheck { s with rxbuf := s.rxbuf.write s.decCnt.toNat b } = some t)) := by
  unfold decAcc decComplete
  simp only [Option.bind_eq_some_iff, storeRx_eq_some]
  constructor
  · rintro ⟨u, ⟨hlt, rfl⟩, h⟩
    refine ⟨hlt, ?_⟩
    split_ifs at h with h1 h2
    · exact .inl ⟨h1, by simpa using h.symm⟩
    · exact .inr (.inr ⟨by omega, h2, h⟩)
    · exact .inr (.inl ⟨by omega, h2, by simpa using h.symm⟩)
  · rintro ⟨hlt, h⟩
    refine ⟨_, ⟨hlt, rfl⟩, ?_⟩
    rcases h with ⟨h1, rfl⟩ | ⟨h1, h2, rfl⟩ | ⟨h1, h2, h3⟩
    · rw [if_pos h1]
    · rw [if_neg (by omega), if_neg h2]
    · rw [if_neg (by omega), if_pos h2, h3]

/-- Running the unpacker, whole: the reserved bits are judged first, then the buffered bytes are unpacked. -/
theorem runMask_eq_some {mask : Word} {s t : State} :
    runMask mask s = some t ↔
      (maskReserved mask ≠ 0#9 ∧
          t = raise .schemaExhausted ((maskReserved mask).setWidth 32) { s with uMask := mask })
        ∨ (maskReserved mask = 0#9 ∧ s.ubufLen.toNat ≤ s.cfg.ubufSize ∧
          t = takeResult (unpack (ubufBytes s) mask) { s with uMask := mask }) := by
  unfold runMask
  by_cases h : maskReserved mask = 0#9
  · simp only [h, ne_eq, not_true_eq_false, if_false, false_and, true_and, false_or, Option.map_eq_some_iff,
      readRun_eq_some, Nat.zero_add]
    constructor
    · rintro ⟨p, ⟨hp, rfl⟩, rfl⟩; exact ⟨hp, rfl⟩
    · rintro ⟨hp, rfl⟩; exact ⟨_, ⟨hp, rfl⟩, rfl⟩
  · simp [h, eq_comm]

/-- With `UBUF_LEN` within the buffer a run is the effect of `unpack`, whatever the mask (R212). -/
theorem runMask_eq {mask : Word} {s : State} (h : s.ubufLen.toNat ≤ s.cfg.ubufSize) :
    runMask mask s = some (takeResult (unpack (ubufBytes s) mask) { s with uMask := mask }) := by
  rw [runMask_eq_some]
  by_cases hm : maskReserved mask = 0#9
  · exact .inr ⟨hm, h, rfl⟩
  · exact .inl ⟨hm, by simp [unpack, hm, takeResult]⟩

/-- One turn of the unpacker's walk, whole (R202). -/
theorem walkSlot_eq_ok {payload : List Byte} {mask : Word} {i : Slot} {w w' : Walk} :
    walkSlot payload mask i w = .ok w' ↔
      (hasBit mask i = false ∧ w' = w)
        ∨ (hasBit mask i = true ∧ width i ≤ payload.length - w.off ∧
          w' = { off := w.off + width i, valid := w.valid ||| (1#23 <<< i.val),
                 raw := w.raw.set i (fieldRaw i payload w.off) }) := by
  unfold walkSlot
  cases h : hasBit mask i
  · simp [eq_comm]
  · by_cases hn : payload.length - w.off < width i
    · simp [hn]
    · simp [hn, eq_comm]; omega

/-- Where the walk stops (R202, R208): at a selected slot with too few bytes left. -/
theorem walkSlot_eq_error {payload : List Byte} {mask : Word} {i : Slot} {w : Walk} {e : Slot × Nat} :
    walkSlot payload mask i w = .error e ↔
      hasBit mask i = true ∧ payload.length - w.off < width i ∧ e = (i, payload.length - w.off) := by
  unfold walkSlot
  cases h : hasBit mask i
  · simp
  · by_cases hn : payload.length - w.off < width i
    · simp [hn, eq_comm]
    · simp [hn]

/-- A slot operand names a slot exactly below 23 (R83). -/
theorem slotOf_eq_some {x : BitVec 5} {i : Slot} : slotOf x = some i ↔ x.toNat = i.val := by
  unfold slotOf
  split
  · rw [Option.some.injEq, Fin.ext_iff]
  · rename_i h
    constructor
    · simp
    · intro hx; have := i.isLt; omega

/-- Every slot stands in the walk's order. -/
@[simp] theorem mem_allSlots (i : Slot) : i ∈ allSlots := by
  revert i; decide

/-- The log keeps what it had (R31). -/
theorem withLogBit_keeps (k : Nat) (log : Word) (i : Nat) (h : log.getLsbD i = true) :
    (withLogBit k log).getLsbD i = true := by
  simp [withLogBit, h]

/-- The log takes the bit it is given (R31). -/
theorem withLogBit_sets (k : Nat) (log : Word) (h : k < 32) : (withLogBit k log).getLsbD k = true := by
  simp [withLogBit, h]

/-! ### Sequences of operations -/

@[simp] theorem execAll_nil (s : State) : execAll [] s = some (s, []) := rfl

/-- A first operation that completes with a response puts it before the rest. -/
theorem execAll_cons_of_next {i : Instr} {is : List Instr} {s t : State} {r : Response} (h : exec i s = .next t)
    (hr : t.rsp = some r) : execAll (i :: is) s = (execAll is t).map fun x => (x.1, r :: x.2) := by
  simp [execAll, h, hr]

/-- Two sequences, one after the other. -/
theorem execAll_append (is js : List Instr) (s : State) :
    execAll (is ++ js) s = (execAll is s).bind fun x => (execAll js x.1).map fun y => (y.1, x.2 ++ y.2) := by
  induction is generalizing s with
  | nil => cases h : execAll js s <;> simp [execAll, h]
  | cons i is ih =>
    simp only [List.cons_append, execAll]
    split
    · rename_i t _
      rw [ih t]
      cases execAll is t with
      | none => rfl
      | some x => cases h : execAll js x.1 <;> simp [h]
    · rfl

end Sys2Proof.Machine
end

