-- ==== Sys2Proof/Laws/PerInstr.lean ====
section
/-! SUPPORT. A family of statements, one per instruction: the encoding of an instruction lies in its row of
spec/opcode_table.json, "a command word W spells the operation iff W and mask = match" (R107). -/

namespace Sys2Proof.Laws

/-- What an instruction is presented as, as a number of at most 40 bits. -/
def encodedWord (i : Instr) : PortWord :=
  match encode i with
  | .cmd w => w
  | .rx b => b.setWidth 40
  | .mask m => m.setWidth 40

/-- The columns `match` and `mask` of an instruction's row. -/
def tableRow : Instr → PortWord × PortWord
  | .nop => (0x0000000000#40, 0xFFFFFFFFFF#40)
  | .reset => (0x0100000000#40, 0xFFFFFFFFFF#40)
  | .csrRd _ => (0x0200000000#40, 0xFFFFFFFF00#40)
  | .crcClr => (0x1000000000#40, 0xFFFFFFFFFF#40)
  | .crcUpd _ => (0x1100000000#40, 0xFFFFFFFF00#40)
  | .encStart _ => (0x2000000000#40, 0xFFFFFF0000#40)
  | .encPush _ => (0x2100000000#40, 0xFFFFFFFF00#40)
  | .encAbort => (0x2200000000#40, 0xFFFFFFFFFF#40)
  | .decByte _ => (0x3000000000#40, 0xFFFFFFFF00#40)
  | .decRd _ => (0x3100000000#40, 0xFFFFFF0000#40)
  | .decDrop => (0x3200000000#40, 0xFFFFFFFFFF#40)
  | .unpClr => (0x4000000000#40, 0xFFFFFFFFFF#40)
  | .unpPush _ => (0x4100000000#40, 0xFFFFFFFF00#40)
  | .unpRun _ => (0x4200000000#40, 0xFF00000000#40)
  | .unpRd _ => (0x4300000000#40, 0xFFFFFFFFE0#40)
  | .schRd _ => (0x4400000000#40, 0xFFFFFFFFE0#40)
  | .frameShort => (0x02#40, 0xFF#40)
  | .frameLong => (0x03#40, 0xFF#40)
  | .frameTerminator => (0x03#40, 0xFF#40)
  | .field0 => (0x00000001#40, 0x00000001#40)
  | .field1 => (0x00000002#40, 0x00000002#40)
  | .field2 => (0x00000004#40, 0x00000004#40)
  | .field3 => (0x00000008#40, 0x00000008#40)
  | .field4 => (0x00000010#40, 0x00000010#40)
  | .field5 => (0x00000020#40, 0x00000020#40)
  | .field6 => (0x00000040#40, 0x00000040#40)
  | .field7 => (0x00000080#40, 0x00000080#40)
  | .field8 => (0x00000100#40, 0x00000100#40)
  | .field9 => (0x00000200#40, 0x00000200#40)
  | .field10 => (0x00000400#40, 0x00000400#40)
  | .field11 => (0x00000800#40, 0x00000800#40)
  | .field12 => (0x00001000#40, 0x00001000#40)
  | .field13 => (0x00002000#40, 0x00002000#40)
  | .field14 => (0x00004000#40, 0x00004000#40)
  | .field15 => (0x00008000#40, 0x00008000#40)
  | .field16 => (0x00010000#40, 0x00010000#40)
  | .field17 => (0x00020000#40, 0x00020000#40)
  | .field18 => (0x00040000#40, 0x00040000#40)
  | .field19 => (0x00080000#40, 0x00080000#40)
  | .field20 => (0x00100000#40, 0x00100000#40)
  | .field21 => (0x00200000#40, 0x00200000#40)
  | .field22 => (0x00400000#40, 0x00400000#40)
  | .fieldReserved _ => (0x00000000#40, 0xFF800000#40)

/-- A presence mask is in the row `FIELD.RESERVED` only when it is legal (R98); every other instruction always is in its
row. -/
def maskLegal : Instr → Bool
  | .fieldReserved m => m &&& 0xFF800000#32 == 0#32
  | _ => true

/-- The family's statement. -/
def EncodedInRow.Statement (i : Instr) : Prop :=
  maskLegal i = true → encodedWord i &&& (tableRow i).2 = (tableRow i).1

/-- An operand of `k` bits leaves alone every bit the row fixes, where the row's mask has none of the low `k`. -/
theorem cmdWord_and {k : Nat} (op : BitVec 8) (x : BitVec k) (mask : PortWord) (h : mask &&& (BitVec.allOnes k).setWidth 40 = 0#40) :
    cmdWord op (x.setWidth 32) &&& mask = cmdWord op 0#32 &&& mask := by
  apply BitVec.eq_of_getLsbD_eq
  intro i hi
  have hb := congrArg (fun v => v.getLsbD i) h
  simp only [BitVec.getLsbD_and, BitVec.getLsbD_setWidth, BitVec.getLsbD_allOnes, BitVec.getLsbD_zero, hi, decide_true,
    Bool.true_and] at hb
  simp only [cmdWord, BitVec.getLsbD_and, BitVec.getLsbD_append, BitVec.getLsbD_setWidth, BitVec.getLsbD_zero]
  by_cases hk : i < k
  · have : mask.getLsbD i = false := by simpa [hk] using hb
    simp [this]
  · have : x.getLsbD i = false := BitVec.getLsbD_of_ge x i (by omega)
    simp [this]

/-- The encoding of an operation with a `k`-bit operand lies in its row. -/
theorem word_in_row {k : Nat} (op : BitVec 8) (x : BitVec k) (mask m : PortWord)
    (h : mask &&& (BitVec.allOnes k).setWidth 40 = 0#40) (h0 : cmdWord op 0#32 &&& mask = m) :
    cmdWord op (x.setWidth 32) &&& mask = m :=
  (cmdWord_and op x mask h).trans h0

theorem EncodedInRow.nop : EncodedInRow.Statement .nop := fun _ => by decide

theorem EncodedInRow.reset : EncodedInRow.Statement .reset := fun _ => by decide

theorem EncodedInRow.csrRd (n : Byte) : EncodedInRow.Statement (.csrRd n) := fun _ =>
  word_in_row 0x2#8 n 0xFFFFFFFF00#40 0x0200000000#40 (by decide) (by decide)

theorem EncodedInRow.crcClr : EncodedInRow.Statement .crcClr := fun _ => by decide

theorem EncodedInRow.crcUpd (b : Byte) : EncodedInRow.Statement (.crcUpd b) := fun _ =>
  word_in_row 0x11#8 b 0xFFFFFFFF00#40 0x1100000000#40 (by decide) (by decide)

theorem EncodedInRow.encStart (len : Half) : EncodedInRow.Statement (.encStart len) := fun _ =>
  word_in_row 0x20#8 len 0xFFFFFF0000#40 0x2000000000#40 (by decide) (by decide)

theorem EncodedInRow.encPush (b : Byte) : EncodedInRow.Statement (.encPush b) := fun _ =>
  word_in_row 0x21#8 b 0xFFFFFFFF00#40 0x2100000000#40 (by decide) (by decide)

theorem EncodedInRow.encAbort : EncodedInRow.Statement .encAbort := fun _ => by decide

theorem EncodedInRow.decByte (b : Byte) : EncodedInRow.Statement (.decByte b) := fun _ =>
  word_in_row 0x30#8 b 0xFFFFFFFF00#40 0x3000000000#40 (by decide) (by decide)

theorem EncodedInRow.decRd (idx : Half) : EncodedInRow.Statement (.decRd idx) := fun _ =>
  word_in_row 0x31#8 idx 0xFFFFFF0000#40 0x3100000000#40 (by decide) (by decide)

theorem EncodedInRow.decDrop : EncodedInRow.Statement .decDrop := fun _ => by decide

theorem EncodedInRow.unpClr : EncodedInRow.Statement .unpClr := fun _ => by decide

theorem EncodedInRow.unpPush (b : Byte) : EncodedInRow.Statement (.unpPush b) := fun _ =>
  word_in_row 0x41#8 b 0xFFFFFFFF00#40 0x4100000000#40 (by decide) (by decide)

theorem EncodedInRow.unpRun (mask : Word) : EncodedInRow.Statement (.unpRun mask) := fun _ => by
  have h := word_in_row 0x42#8 mask 0xFF00000000#40 0x4200000000#40 (by decide) (by decide)
  rwa [BitVec.setWidth_eq] at h

theorem EncodedInRow.unpRd (slot : BitVec 5) : EncodedInRow.Statement (.unpRd slot) := fun _ =>
  word_in_row 0x43#8 slot 0xFFFFFFFFE0#40 0x4300000000#40 (by decide) (by decide)

theorem EncodedInRow.schRd (slot : BitVec 5) : EncodedInRow.Statement (.schRd slot) := fun _ =>
  word_in_row 0x44#8 slot 0xFFFFFFFFE0#40 0x4400000000#40 (by decide) (by decide)

theorem EncodedInRow.frameShort : EncodedInRow.Statement .frameShort := fun _ => by decide

theorem EncodedInRow.frameLong : EncodedInRow.Statement .frameLong := fun _ => by decide

theorem EncodedInRow.frameTerminator : EncodedInRow.Statement .frameTerminator := fun _ => by decide

theorem EncodedInRow.field0 : EncodedInRow.Statement .field0 := fun _ => by decide

theorem EncodedInRow.field1 : EncodedInRow.Statement .field1 := fun _ => by decide

theorem EncodedInRow.field2 : EncodedInRow.Statement .field2 := fun _ => by decide

theorem EncodedInRow.field3 : EncodedInRow.Statement .field3 := fun _ => by decide

theorem EncodedInRow.field4 : EncodedInRow.Statement .field4 := fun _ => by decide

theorem EncodedInRow.field5 : EncodedInRow.Statement .field5 := fun _ => by decide

theorem EncodedInRow.field6 : EncodedInRow.Statement .field6 := fun _ => by decide

theorem EncodedInRow.field7 : EncodedInRow.Statement .field7 := fun _ => by decide

theorem EncodedInRow.field8 : EncodedInRow.Statement .field8 := fun _ => by decide

theorem EncodedInRow.field9 : EncodedInRow.Statement .field9 := fun _ => by decide

theorem EncodedInRow.field10 : EncodedInRow.Statement .field10 := fun _ => by decide

theorem EncodedInRow.field11 : EncodedInRow.Statement .field11 := fun _ => by decide

theorem EncodedInRow.field12 : EncodedInRow.Statement .field12 := fun _ => by decide

theorem EncodedInRow.field13 : EncodedInRow.Statement .field13 := fun _ => by decide

theorem EncodedInRow.field14 : EncodedInRow.Statement .field14 := fun _ => by decide

theorem EncodedInRow.field15 : EncodedInRow.Statement .field15 := fun _ => by decide

theorem EncodedInRow.field16 : EncodedInRow.Statement .field16 := fun _ => by decide

theorem EncodedInRow.field17 : EncodedInRow.Statement .field17 := fun _ => by decide

theorem EncodedInRow.field18 : EncodedInRow.Statement .field18 := fun _ => by decide

theorem EncodedInRow.field19 : EncodedInRow.Statement .field19 := fun _ => by decide

theorem EncodedInRow.field20 : EncodedInRow.Statement .field20 := fun _ => by decide

theorem EncodedInRow.field21 : EncodedInRow.Statement .field21 := fun _ => by decide

theorem EncodedInRow.field22 : EncodedInRow.Statement .field22 := fun _ => by decide

theorem EncodedInRow.fieldReserved (m : Word) : EncodedInRow.Statement (.fieldReserved m) := fun h => by
  have hm : m &&& 0xFF800000#32 = 0#32 := by simpa [maskLegal] using h
  have := congrArg (fun v => v.setWidth 40) hm
  simpa [encodedWord, encode, tableRow, BitVec.setWidth_and] using this

end Sys2Proof.Laws
end

