-- ==== Sys2Proof/Tests/Slice0.lean ====
section
/-! SUPPORT. Tests: the smoke test of `WellFormed`, every row's decoding from a word written out from its encoding, one-step
tests with the results spec/95_test_vectors.md gives, and for every statement with hypotheses a witness that meets them. -/

namespace Sys2Proof.Tests

open Sys2Proof.Machine Sys2Proof.Spec

/-! ### Helpers -/

/-- The next state of an outcome. -/
def nextOf : Host.Outcome State Fault Refusal → Option State
  | .next t => some t
  | _ => none

/-- The response of an outcome. -/
def rspOf (o : Host.Outcome State Fault Refusal) : Option Response := (nextOf o).bind (·.rsp)

/-- The bytes an outcome emits. -/
def emittedOf (o : Host.Outcome State Fault Refusal) : Option (List Byte) := (nextOf o).map (·.emitted)

/-- `ERRLOG` after an outcome. -/
def logOf (o : Host.Outcome State Fault Refusal) : Option Word := (nextOf o).map (·.errlog)

/-- The raw value of a slot in a result of `unpack`. -/
def rawOf (r : UnpackResult) (i : Slot) : Option Word :=
  match r with
  | .record raw _ _ => some raw[i]
  | _ => none

/-- This hardware with long-form decoding on. -/
def longCfg : Config := { Config.thisHardware with longDecode := true }

/-- The reset state of a block with long-form decoding. -/
def longReset : State := { State.reset with cfg := longCfg }

/-- The largest buffer `UBUF_LEN` can count. -/
def bigCfg : Config := { Config.thisHardware with ubufSize := 65535 }

/-- The encoder with `n` payload bytes still to come. -/
def encoding (n : Half) : State := { State.reset with encState := .pay, encRem := n }

/-- The decoder inside the frame `02 01 04 40 84 03`, before its last byte; `lo` stands for 84. -/
def beforeLast (lo : Byte) : State :=
  { State.reset with
    decState := .acc, decCnt := 5, decL := 1, decOff := 2,
    rxbuf := [(0, 0x02#8), (1, 0x01#8), (2, 0x04#8), (3, 0x40#8), (4, lo)] }

/-- The frame `02 01 04 40 84 03` held, a payload `00 C8` unpacked under the mask 1, and one more byte of a frame to encode. -/
def busy : State :=
  { State.reset with
    crcAcc := 0x4084, encState := .pay, encRem := 1, encCrc := 0x1021,
    decL := 1, decRes := .ok, decCrcCalc := 0x4084, decCrcRecv := 0x4084,
    rxbuf := [(0, 0x02#8), (1, 0x01#8), (2, 0x04#8), (3, 0x40#8), (4, 0x84#8), (5, 0x03#8)],
    ubuf := [(1, 0xC8#8)], ubufLen := 2, uMask := 1, uRes := .ok, uValid := 1,
    uRaw := (Vector.replicate 23 0).set 0 200, uConsumed := 2, errlog := 0x00002001 }

/-- `n` bytes 00 in the unpacker's buffer. -/
def zerosPushed (n : Half) : State := { State.reset with ubufLen := n }

/-- The payload of vector U1, `00 C8 00 FA`. -/
def u1 : State := { State.reset with ubuf := [(1, 0xC8#8), (3, 0xFA#8)], ubufLen := 4 }

/-! ### Well-formed instructions: each check refuses an ill-formed term -/

theorem test_wf_refuses_field_mask : WellFormed (.fieldReserved 0x00000001) = false := by decide
theorem test_wf_refuses_last_field_mask : WellFormed (.fieldReserved 0x00400000) = false := by decide
theorem test_wf_admits_reserved_mask : WellFormed (.fieldReserved 0x00800000) = true := by decide
theorem test_wf_admits_other_rows : WellFormed (.encStart 256) = true ∧ WellFormed (.schRd 31) = true := by decide

/-! ### Decoding: every row of the table, from words written out by R81 and R107 -/

theorem test_decode_commands :
    decodeTableWord 40 0x0000000000 = some .nop ∧ decodeTableWord 40 0x0100000000 = some .reset
    ∧ decodeTableWord 40 0x020000000A = some (.csrRd 0x0A) ∧ decodeTableWord 40 0x1000000000 = some .crcClr
    ∧ decodeTableWord 40 0x11000000C4 = some (.crcUpd 0xC4) ∧ decodeTableWord 40 0x200000FF01 = some (.encStart 0xFF01)
    ∧ decodeTableWord 40 0x2100000032 = some (.encPush 0x32) ∧ decodeTableWord 40 0x2200000000 = some .encAbort
    ∧ decodeTableWord 40 0x3000000089 = some (.decByte 0x89) ∧ decodeTableWord 40 0x3100001234 = some (.decRd 0x1234)
    ∧ decodeTableWord 40 0x3200000000 = some .decDrop ∧ decodeTableWord 40 0x4000000000 = some .unpClr
    ∧ decodeTableWord 40 0x41000000FA = some (.unpPush 0xFA) ∧ decodeTableWord 40 0x4280000003 = some (.unpRun 0x80000003)
    ∧ decodeTableWord 40 0x4300000016 = some (.unpRd 22) ∧ decodeTableWord 40 0x440000001F = some (.schRd 31) := by
  decide

/-- A reserved bit of `arg`, or an unassigned code, is refused (R82, R99). -/
theorem test_decode_refuses :
    decodeTableWord 40 0x0000000001 = none ∧ decodeTableWord 40 0x4300000020 = none
    ∧ decodeTableWord 40 0x2000010000 = none ∧ decodeTableWord 40 0x0200000100 = none
    ∧ decodeTableWord 40 0x0300000000 = none ∧ decodeTableWord 40 0xFF00000000 = none := by
  decide

theorem test_decode_frame_rows :
    decode .header (.rx 0x02) = .ok .frameShort ∧ decode .header (.rx 0x03) = .ok .frameLong
    ∧ decode .terminator (.rx 0x03) = .ok .frameTerminator ∧ decode .data (.rx 0x03) = .ok (.decByte 0x03)
    ∧ decode .terminator (.rx 0x02) = .ok (.decByte 0x02) ∧ decode .header (.rx 0x04) = .ok (.decByte 0x04)
    ∧ decodeTableWord 8 0x02 = some .frameShort ∧ decodeTableWord 8 0x03 = some .frameLong := by
  refine ⟨rfl, rfl, rfl, rfl, rfl, rfl, ?_, ?_⟩ <;> decide

theorem test_decode_field_rows :
    decodeMask 0x00000001 = .field0
    ∧ decodeMask 0x00000002 = .field1
    ∧ decodeMask 0x00000004 = .field2
    ∧ decodeMask 0x00000008 = .field3
    ∧ decodeMask 0x00000010 = .field4
    ∧ decodeMask 0x00000020 = .field5
    ∧ decodeMask 0x00000040 = .field6
    ∧ decodeMask 0x00000080 = .field7
    ∧ decodeMask 0x00000100 = .field8
    ∧ decodeMask 0x00000200 = .field9
    ∧ decodeMask 0x00000400 = .field10
    ∧ decodeMask 0x00000800 = .field11
    ∧ decodeMask 0x00001000 = .field12
    ∧ decodeMask 0x00002000 = .field13
    ∧ decodeMask 0x00004000 = .field14
    ∧ decodeMask 0x00008000 = .field15
    ∧ decodeMask 0x00010000 = .field16
    ∧ decodeMask 0x00020000 = .field17
    ∧ decodeMask 0x00040000 = .field18
    ∧ decodeMask 0x00080000 = .field19
    ∧ decodeMask 0x00100000 = .field20
    ∧ decodeMask 0x00200000 = .field21
    ∧ decodeMask 0x00400000 = .field22
    ∧ decodeTableWord 32 0x00800000 = some (.fieldReserved 0x00800000)
    ∧ decodeTableWord 32 0x80000003 = some (.fieldReserved 0x80000003) := by
  decide

/-! ### One step of each operation (spec/95_test_vectors.md) -/

set_option maxRecDepth 8000 in
/-- Vector K5 and 40_checksum.md R128. -/
theorem test_crc16 : crc16 [0x31, 0x32, 0x33, 0x34, 0x35, 0x36, 0x37, 0x38, 0x39] = 0x31C3
    ∧ crc16 [0xDE, 0xAD, 0xBE, 0xEF] = 0xC457 ∧ crc16 [] = 0 := by decide

/-- Vector K4. -/
theorem test_crc_update : crcUpdate 0x0000 0x80 = 0x9188 ∧ crcUpdate 0xFFFF 0xFF = 0xFF00 ∧ crcUpdate 0x1234 0x56 = 0x3C40 := by
  decide

/-- Vector K6 step 4. -/
theorem test_crc_upd : rspOf (exec (.crcUpd 0x40) busy) = some ⟨.ok, 0x00008400⟩ := by decide

/-- Vector K6 step 7. -/
theorem test_crc_clr : (nextOf (exec .crcClr busy)).map (·.crcAcc) = some 0 := by decide

/-- Vector K6 step 8, on the command port. -/
theorem test_crc_upd_reserved_bit :
    rspOf (step (State.withFetchWord State.reset 40 0x1100000104)) = some ⟨.illegalOp, 0⟩
      ∧ logOf (step (State.withFetchWord State.reset 40 0x1100000104)) = some 0x00000100 := by decide

/-- Vectors E1, E8 and E7: `ENC.START`. -/
theorem test_enc_start : emittedOf (exec (.encStart 1) State.reset) = some [0x02, 0x01]
    ∧ emittedOf (exec (.encStart 257) State.reset) = some [0x03, 0x01, 0x01]
    ∧ rspOf (exec (.encStart 256) State.reset) = some ⟨.lengthUnrepresentable, 0⟩ := by decide

/-- Vector E2. -/
theorem test_enc_start_empty : emittedOf (exec (.encStart 0) State.reset) = some [0x02, 0x00, 0x00, 0x00, 0x03]
    ∧ rspOf (exec (.encStart 0) State.reset) = some ⟨.ok, 5⟩ := by decide

/-- Vector E1, the last byte. -/
theorem test_enc_push_last : emittedOf (exec (.encPush 0x04) (encoding 1)) = some [0x04, 0x40, 0x84, 0x03]
    ∧ rspOf (exec (.encPush 0x04) (encoding 1)) = some ⟨.ok, 4⟩ := by decide

/-- Vector E3, its first byte. -/
theorem test_enc_push : emittedOf (exec (.encPush 0x00) (encoding 4)) = some [0x00]
    ∧ (nextOf (exec (.encPush 0x00) (encoding 4))).map (·.encRem) = some 3 := by decide

/-- R145: from PAY, nothing is emitted. -/
theorem test_enc_abort : (nextOf (exec .encAbort (encoding 9))).map (fun t => (t.encState, t.encRem, t.emitted))
    = some (.idle, 0, []) := by decide

set_option maxRecDepth 8000 in
/-- Vector E1 by the function of R141; vectors B1 to B3 of the boundary component. -/
theorem test_encode_frame : encodeFrame [0x04] = some [0x02, 0x01, 0x04, 0x40, 0x84, 0x03]
    ∧ encodeFrame (telemetryRequest 0x32 0x00000003) = some [0x02, 0x05, 0x32, 0x00, 0x00, 0x00, 0x03, 0x78, 0x0E, 0x03]
    ∧ encodeFrame (dutyCommand 0x05 250) = some [0x02, 0x05, 0x05, 0x00, 0x00, 0x00, 0xFA, 0x6D, 0x02, 0x03]
    ∧ encodeFrame (dutyCommand 0x05 (-500)) = some [0x02, 0x05, 0x05, 0xFF, 0xFF, 0xFE, 0x0C, 0x56, 0xD5, 0x03] := by
  decide

/-- Vectors D1, D5 and D6: the last byte. -/
theorem test_dec_byte_last : rspOf (exec (.decByte 0x03) (beforeLast 0x84)) = some ⟨.frameOk, 1⟩
    ∧ rspOf (exec (.decByte 0x04) (beforeLast 0x84)) = some ⟨.badTerminator, 4⟩
    ∧ rspOf (exec (.decByte 0x03) (beforeLast 0x85)) = some ⟨.checksumMismatch, 0x40844085⟩ := by decide

/-- Vectors D7 and D14: the header 0x03. -/
theorem test_dec_byte_header : rspOf (exec (.decByte 0x03) State.reset) = some ⟨.unsupportedHeader, 3⟩
    ∧ rspOf (exec (.decByte 0x03) longReset) = some ⟨.pending, 1⟩ := by decide

/-- Vector D1. -/
theorem test_dec_rd : rspOf (exec (.decRd 0) busy) = some ⟨.ok, 4⟩
    ∧ rspOf (exec (.decRd 1) busy) = some ⟨.indexRange, 0⟩ := by decide

/-- Vector D20. -/
theorem test_dec_rd_no_frame : rspOf (exec (.decRd 0xFFFF) State.reset) = some ⟨.noData, 0⟩
    ∧ logOf (exec (.decRd 0xFFFF) State.reset) = some 0x00002000 := by decide

/-- Vector D17. -/
theorem test_dec_drop : (nextOf (exec .decDrop (beforeLast 0x84))).map (fun t => (csrRead 0x03 t, csrRead 0x04 t, csrRead 0x05 t))
    = some (some 0x00000200, some 0, some 0) := by decide

/-- Vectors H1, H2 and H3. -/
theorem test_sch_rd : rspOf (exec (.schRd 0) State.reset) = some ⟨.ok, 0x00000A0A⟩
    ∧ rspOf (exec (.schRd 15) State.reset) = some ⟨.ok, 0x00000011⟩
    ∧ rspOf (exec (.schRd 16) State.reset) = some ⟨.ok, 0x0F42400C⟩
    ∧ rspOf (exec (.schRd 23) State.reset) = some ⟨.indexRange, 0⟩ := by decide

/-- Vector U16: the byte that fills the buffer, and the one after it. -/
theorem test_unp_push : rspOf (exec (.unpPush 0xFF) (zerosPushed 255)) = some ⟨.ok, 0x00000100⟩
    ∧ rspOf (exec (.unpPush 0x00) (zerosPushed 256)) = some ⟨.bufferFull, 0⟩ := by decide

/-- Vectors U1 and U3 (with `00 C8 00`, the first three bytes). -/
theorem test_unp_run : rspOf (exec (.unpRun 0x00000003) u1) = some ⟨.ok, 4⟩
    ∧ rspOf (exec (.unpRun 0x00000003) { u1 with ubufLen := 3 }) = some ⟨.truncatedPayload, 0x00000101⟩
    ∧ rspOf (exec (.unpRun 0x00800003) u1) = some ⟨.schemaExhausted, 0x00000001⟩ := by decide

/-- Vectors U1, U6, U7: the values delivered. -/
theorem test_unpack_values :
    rawOf (unpack [0x00, 0xC8, 0x00, 0xFA] 0x00000003) 0 = some 0xC8 ∧ rawOf (unpack [0x00, 0xC8, 0x00, 0xFA] 0x00000003) 1 = some 0xFA
    ∧ rawOf (unpack [0xFF, 0x38] 0x00000001) 0 = some 0xFFFFFF38
    ∧ rawOf (unpack [0x05, 0xFF, 0xFF, 0xFF, 0xFE, 0x2A] 0x00038000) 15 = some 5
    ∧ rawOf (unpack [0x05, 0xFF, 0xFF, 0xFF, 0xFE, 0x2A] 0x00038000) 16 = some 0xFFFFFFFE
    ∧ rawOf (unpack [0x05, 0xFF, 0xFF, 0xFF, 0xFE, 0x2A] 0x00038000) 17 = some 0x2A := by decide

/-- Vector U1. -/
theorem test_unp_rd : rspOf (exec (.unpRd 0) busy) = some ⟨.ok, 200⟩ ∧ rspOf (exec (.unpRd 2) busy) = some ⟨.absent, 0⟩
    ∧ rspOf (exec (.unpRd 23) busy) = some ⟨.indexRange, 0⟩ ∧ rspOf (exec (.unpRd 0) State.reset) = some ⟨.noData, 0⟩ := by decide

/-- R210. -/
theorem test_unp_clr : (nextOf (exec .unpClr busy)).map (fun t => (t.ubufLen, t.uRes, t.uValid, t.uRaw[0]))
    = some (0, .none, 0, 0) := by decide

/-- Rows FRAME.SHORT, FRAME.LONG and FRAME.TERMINATOR as bytes of vectors D1, D14 and D1 (log 1). -/
theorem test_frame_rows : rspOf (exec .frameShort State.reset) = some ⟨.pending, 1⟩
    ∧ rspOf (exec .frameLong longReset) = some ⟨.pending, 1⟩
    ∧ rspOf (exec .frameTerminator (beforeLast 0x84)) = some ⟨.frameOk, 1⟩ := by decide

/-- Rows FIELD.0, FIELD.2, FIELD.15 over the payload of U1 (log 1): widths 2, 4, 1. -/
theorem test_field_rows : rspOf (exec .field0 u1) = some ⟨.ok, 2⟩
    ∧ (nextOf (exec .field2 u1)).map (fun t => t.uRaw[2]) = some 0x00C800FA
    ∧ rspOf (exec .field15 u1) = some ⟨.ok, 1⟩ := by decide

/-- Vector U12. -/
theorem test_field_reserved : rspOf (exec (.fieldReserved 0xFFFFFFFF) u1) = some ⟨.schemaExhausted, 0x000001FF⟩ := by decide

/-- CSR 0x03 after vector D14's last byte would read `DEC_OFF` 3; the values of `busy` laid out by R42, R44, R47, R48. -/
theorem test_csr_rd : rspOf (exec (.csrRd 0x03) busy) = some ⟨.ok, 0x00000210⟩
    ∧ rspOf (exec (.csrRd 0x06) busy) = some ⟨.ok, 0x40844084⟩
    ∧ rspOf (exec (.csrRd 0x07) busy) = some ⟨.ok, 0x00020201⟩
    ∧ rspOf (exec (.csrRd 0x0C) busy) = some ⟨.indexRange, 0⟩ := by decide

/-- Vector U1's draw read back (CSR 0x0A); of a wider timestamp the register shows bits 31:0 (log 17). -/
theorem test_csr_rd_timestamp : rspOf (exec (.csrRd 0x0A) { busy with uTs := 0x00001234 }) = some ⟨.ok, 0x00001234⟩
    ∧ rspOf (exec (.csrRd 0x0A) { busy with uTs := 0x100000002 }) = some ⟨.ok, 2⟩ := by decide

/-- The words of three responses of 95_test_vectors.md: vectors D1, D6 and Y2's refusal of `CSR.RD 0x0C`. -/
theorem test_response_word : (Response.mk .frameOk 1).word = 0x0200000001
    ∧ (Response.mk .checksumMismatch 0x40844085).word = 0x1240844085 ∧ (Response.mk .indexRange 0).word = 0x3400000000 := by
  decide

/-- R232 and R282: both resets clear the log; the input returns no response. -/
theorem test_reset : logOf (exec .reset busy) = some 0 ∧ rspOf (exec .reset busy) = some ⟨.ok, 0⟩
    ∧ rspOf (step (Machine.present .resetInput busy)) = none
    ∧ logOf (step (Machine.present .resetInput busy)) = some 0 := by decide

/-- R231. -/
theorem test_nop : rspOf (exec .nop busy) = some ⟨.ok, 0⟩ ∧ logOf (exec .nop busy) = some 0x00002001 := by decide

/-! ### Witnesses: states and operands that meet the hypotheses of each statement, at the ends of every range -/

/-- The invariant holds in the reset state. -/
theorem inv_reset : Inv State.reset := by
  constructor <;> decide

/-- The invariant holds with long-form decoding on. -/
theorem inv_longReset : Inv longReset := by
  constructor <;> decide

/-- The invariant holds with a frame and a record held. -/
theorem inv_busy : Inv busy := by
  constructor <;> decide

/-- The invariant holds inside a frame. -/
theorem inv_beforeLast : Inv (beforeLast 0x84) := by
  constructor <;> decide

theorem witness_DecodeOfEncode : WellFormed (.fieldReserved 0) = true ∧ WellFormed (.fieldReserved 0xFFFFFFFF) = true
    ∧ WellFormed .frameTerminator = true ∧ WellFormed (.unpRun 1) = true := by decide

theorem witness_CommandWordHasOneMeaning : decode .header (.cmd 0x440000001F#40) = .ok (.schRd 31) := by rfl

theorem witness_CommandWordsAreDecodedInOrder :
    (0x03#8 : BitVec 8) ∉ cmdRows.map (·.1) ∧ (0xFF#8 : BitVec 8) ∉ cmdRows.map (·.1)
      ∧ (0x44#8 : BitVec 8) ∈ cmdRows.map (·.1) := by decide

theorem witness_StepRunsTheDecodedInstruction :
    (Machine.present (.item (.cmd 0x2000000001#40)) busy).port = .item (.cmd 0x2000000001#40) :: []
      ∧ decode (framePos (Machine.present (.item (.cmd 0x2000000001#40)) busy)) (.cmd 0x2000000001#40) = .ok (.encStart 1)
      ∧ WellFormed (.encStart 1) = true ∧ State.reset.port = [] :=
  ⟨rfl, rfl, rfl, rfl⟩

/-- The three formats at a header position, and the terminator at its own. -/
theorem witness_StepRunsTheDecodedInstruction_formats :
    decode (framePos State.reset) (.rx 0x02) = .ok .frameShort
      ∧ decode (framePos (beforeLast 0x84)) (.rx 0x03) = .ok .frameTerminator
      ∧ decode (framePos State.reset) (.mask 0x00400000) = .ok .field22 := ⟨rfl, rfl, rfl⟩

theorem witness_CsrReadGivesTheRegister : busy.uTs < 2 ^ 32 ∧ { busy with uTs := 0xFFFFFFFF }.uTs < 2 ^ 32
    ∧ 0x0B < (0x0C : Byte).toNat ∧ 0x0B < (0xFF : Byte).toNat := by decide

theorem witness_CrcIsLinear : ([0x04, 0x40] : List Byte).length = ([0x32, 0x00] : List Byte).length := rfl

theorem witness_CrcSeesEverySingleBitChange : (0 < 8) ∧ (7 < 8) := by decide

theorem witness_EncStartBeginsAFrame : (encoding 9).encState = .pay ∧ State.reset.encState = .idle
    ∧ (256 : Half).toNat = 256 ∧ (0 : Half).toNat = 0 ∧ (1 ≤ (1 : Half).toNat ∧ (1 : Half).toNat ≤ 255)
    ∧ (1 ≤ (255 : Half).toNat ∧ (255 : Half).toNat ≤ 255) ∧ 257 ≤ (257 : Half).toNat ∧ 257 ≤ (0xFFFF : Half).toNat := by decide

theorem witness_EncPushTakesOnePayloadByte : State.reset.encState = .idle ∧ (encoding 1).encState = .pay
    ∧ (encoding 1).encRem = 1 ∧ (encoding 2).encState = .pay ∧ (encoding 2).encRem ≠ 1
    ∧ (encoding 0xFFFF).encState = .pay ∧ (encoding 0xFFFF).encRem ≠ 1 := by decide

theorem witness_EncFrameEmitsEncode : State.reset.encState = .idle ∧ State.reset.encRem = 0
    ∧ ([] : List Byte).length ≤ 65535 ∧ ([] : List Byte).length ≠ 256 ∧ (List.replicate 65535 (0 : Byte)).length ≤ 65535
    ∧ (List.replicate 65535 (0 : Byte)).length ≠ 256 ∧ (List.replicate 256 (0 : Byte)).length = 256 := by
  simp only [List.length_replicate]
  decide

theorem witness_EncodeShapeAndInjectivity : encodeFrame [] = some [0x02, 0x00, 0x00, 0x00, 0x03]
    ∧ (encodeFrame (List.replicate 255 0)).isSome = true ∧ (encodeFrame (List.replicate 257 0)).isSome = true
    ∧ (encodeFrame (List.replicate 65535 0)).isSome = true := by
  refine ⟨rfl, ?_, ?_, ?_⟩ <;> rw [encodeFrame, List.length_replicate] <;> rfl

theorem witness_DecByteAdvancesTheDecoder_before_ACC : State.reset.decState = .hdr ∧ longReset.decState = .hdr
    ∧ longReset.cfg.longDecode = true ∧ ¬((0x03 : Byte) = 0x03 ∧ State.reset.cfg.longDecode = true)
    ∧ (0x03 : Byte) ≠ 0x02 ∧ (0xFF : Byte) ≠ 0x02
    ∧ { State.reset with decState := .len }.decState = .len ∧ { State.reset with decState := .lenh }.decState = .lenh
    ∧ { State.reset with decState := .lenl }.decState = .lenl := by decide

theorem witness_DecByteAdvancesTheDecoder_in_ACC :
    (∀ lo ∈ [(0x84 : Byte), 0x85], (beforeLast lo).decState = .acc
      ∧ (beforeLast lo).decL.toNat + (beforeLast lo).decOff.toNat + 3 ≤ (beforeLast lo).cfg.rxbufSize
      ∧ (beforeLast lo).decCnt.toNat + 1 = (beforeLast lo).decL.toNat + (beforeLast lo).decOff.toNat + 3)
    ∧ { beforeLast 0x84 with decCnt := 4 }.decCnt.toNat + 1
        < { beforeLast 0x84 with decCnt := 4 }.decL.toNat + { beforeLast 0x84 with decCnt := 4 }.decOff.toNat + 3 := by decide

/-- The checksum clauses: `recv` equal to the computed one, and different from it. -/
theorem witness_DecByteAdvancesTheDecoder_checksum :
    (0x4084 : Half) = crc16 ((beforeLast 0x84).rxbuf.slice (beforeLast 0x84).decOff.toNat (beforeLast 0x84).decL.toNat)
    ∧ (0x4084 : Half).toNat = ((beforeLast 0x84).rxbuf.read 3).toNat * 256 + ((beforeLast 0x84).rxbuf.read 4).toNat
    ∧ (0x4084 : Half) = crc16 ((beforeLast 0x85).rxbuf.slice (beforeLast 0x85).decOff.toNat (beforeLast 0x85).decL.toNat)
    ∧ (0x4085 : Half).toNat = ((beforeLast 0x85).rxbuf.read 3).toNat * 256 + ((beforeLast 0x85).rxbuf.read 4).toNat := by decide

/-- The largest frame of each form fits the buffer exactly. -/
theorem witness_DecByteAdvancesTheDecoder_largest : 255 + 2 + 3 ≤ State.reset.cfg.rxbufSize
    ∧ 65535 + 3 + 3 = longReset.cfg.rxbufSize := by decide

theorem witness_DecRdReadsThePayload : State.reset.decRes ≠ .ok ∧ busy.decRes = .ok
    ∧ busy.decL.toNat ≤ (1 : Half).toNat ∧ busy.decL.toNat ≤ (0xFFFF : Half).toNat ∧ (0 : Half).toNat < busy.decL.toNat
    ∧ busy.decOff.toNat + busy.decL.toNat ≤ busy.cfg.rxbufSize := by decide

theorem witness_FrameRowsDelimitFrames : State.reset.decState = .hdr ∧ State.reset.cfg.longDecode = false
    ∧ longReset.decState = .hdr ∧ longReset.cfg.longDecode = true ∧ (beforeLast 0x84).decState = .acc
    ∧ (beforeLast 0x84).decL.toNat + (beforeLast 0x84).decOff.toNat + 3 ≤ (beforeLast 0x84).cfg.rxbufSize
    ∧ (beforeLast 0x84).decCnt.toNat + 1 = (beforeLast 0x84).decL.toNat + (beforeLast 0x84).decOff.toNat + 3
    ∧ (0x4084 : Half).toNat = ((beforeLast 0x84).rxbuf.read (2 + 1)).toNat * 256 + ((beforeLast 0x84).rxbuf.read (2 + 1 + 1)).toNat
    ∧ crc16 ((beforeLast 0x84).rxbuf.slice (beforeLast 0x84).decOff.toNat (beforeLast 0x84).decL.toNat) = 0x4084 := by decide

/-- Every result of `decode_frame` is met: the empty sequence, then vectors D11, D7, D5, D6, D1 and D14. -/
theorem witness_FeedingBytesIsDecodeFrame : Inv State.reset ∧ State.reset.decState = .hdr ∧ Inv longReset
    ∧ decodeFrame State.reset.cfg.longDecode [] = .nothing
    ∧ decodeFrame State.reset.cfg.longDecode [0x02, 0x02, 0x04, 0x40, 0x84, 0x03] = .pending
    ∧ decodeFrame State.reset.cfg.longDecode [0x03] = .unsupportedHeader 0x03 []
    ∧ decodeFrame State.reset.cfg.longDecode [0x02, 0x01, 0x04, 0x40, 0x84, 0x04] = .badTerminator 0x04 []
    ∧ decodeFrame State.reset.cfg.longDecode [0x02, 0x01, 0x04, 0x40, 0x85, 0x03, 0x99] = .checksumMismatch 0x4084 0x4085 [0x99]
    ∧ decodeFrame State.reset.cfg.longDecode [0x02, 0x01, 0x04, 0x40, 0x84, 0x03] = .frameOk [0x04] []
    ∧ decodeFrame longReset.cfg.longDecode [0x03, 0x00, 0x01, 0x04, 0x40, 0x84, 0x03] = .frameOk [0x04] [] := by
  refine ⟨inv_reset, rfl, inv_longReset, rfl, ?_, ?_, ?_, ?_, ?_, ?_⟩ <;> decide

theorem witness_EncodeThenDecodeRoundTrips : Inv State.reset ∧ State.reset.decState = .hdr ∧ Inv longReset
    ∧ longReset.cfg.longDecode = true ∧ State.reset.cfg.longDecode = false
    ∧ (List.replicate 255 (0 : Byte)).length ≤ 255 ∧ 257 ≤ (List.replicate 257 (0 : Byte)).length
    ∧ (List.replicate 65535 (0 : Byte)).length ≤ 65535 := by
  refine ⟨inv_reset, rfl, inv_longReset, rfl, rfl, ?_, ?_, ?_⟩ <;> rw [List.length_replicate]

/-- Vector D9's frame: checksum bytes at 3 and 4, the payload at 2, the header at 0; and an empty payload. -/
theorem witness_SingleBitFlipsAreDetected :
    decodeFrame false [0x02, 0x01, 0x04, 0x40, 0x84, 0x03] = .frameOk [0x04] []
    ∧ decodeFrame false [0x02, 0x00, 0x00, 0x00, 0x03] = .frameOk [] []
    ∧ (3 = 6 - 3 ∨ 3 = 6 - 2) ∧ (4 = 6 - 3 ∨ 4 = 6 - 2) ∧ (6 - 3 - 1 ≤ 2 ∧ 2 < 6 - 3) ∧ (0 < 8) ∧ (7 < 8) := by decide

theorem witness_CorruptTerminatorIsBadTerminator :
    decodeFrame false [0x02, 0x01, 0x04, 0x40, 0x84, 0x03] = .frameOk [0x04] [] ∧ (0x02 : Byte) ≠ 0x03 ∧ (0xFF : Byte) ≠ 0x03 := by
  decide

theorem witness_FailedFrameLeavesNoPayload :
    rspOf (exec (.decByte 0x03) State.reset) = some ⟨.unsupportedHeader, 3⟩
    ∧ rspOf (exec (.decByte 0x00) (beforeLast 0x84)) = some ⟨.badTerminator, 0⟩
    ∧ rspOf (exec (.decByte 0x03) (beforeLast 0x85)) = some ⟨.checksumMismatch, 0x40844085⟩
    ∧ rspOf (exec (.decByte 0x02) busy) = some ⟨.pending, 1⟩ ∧ busy.decState = .hdr := by decide

theorem witness_SchRdReadsTheSchema : State.reset.cfg.ok = true ∧ (BitVec.ofNat 5 22).toNat < 23
    ∧ 23 ≤ (23 : BitVec 5).toNat ∧ 23 ≤ (31 : BitVec 5).toNat := by decide

theorem witness_UnpPushAppendsAByte : (zerosPushed 256).ubufLen.toNat = (zerosPushed 256).cfg.ubufSize
    ∧ (zerosPushed 255).ubufLen.toNat < (zerosPushed 255).cfg.ubufSize ∧ State.reset.ubufLen.toNat < State.reset.cfg.ubufSize
    ∧ (zerosPushed 255).cfg.ubufSize ≤ 65535
    ∧ { zerosPushed 65534 with cfg := bigCfg }.ubufLen.toNat < { zerosPushed 65534 with cfg := bigCfg }.cfg.ubufSize
    ∧ bigCfg.ubufSize ≤ 65535 := by decide

/-- Vectors U1, U4 and U3; and the empty and the full buffer. -/
theorem witness_UnpRunUnpacksTheBuffer : u1.ubufLen.toNat ≤ u1.cfg.ubufSize
    ∧ (zerosPushed 256).ubufLen.toNat ≤ (zerosPushed 256).cfg.ubufSize ∧ State.reset.ubufLen.toNat ≤ State.reset.cfg.ubufSize
    ∧ rspOf (exec (.unpRun 3) u1) = some ⟨.ok, 4⟩ ∧ unpack (u1.ubuf.slice 0 4) 0x00800003 = .schemaExhausted 1
    ∧ unpack (u1.ubuf.slice 0 3) 0x00000003 = .truncatedPayload 1 1 := by decide

theorem witness_UnpRdReadsAField : 23 ≤ (23 : BitVec 5).toNat ∧ 23 ≤ (31 : BitVec 5).toNat ∧ State.reset.uRes ≠ .ok
    ∧ busy.uRes = .ok ∧ busy.uValid.getLsbD 0 = true ∧ busy.uValid.getLsbD 22 = false := by decide

theorem witness_FieldRowsUnpackTheirSlot : ((15 : Slot), Instr.field15) ∈ fieldTable ∧ ((22 : Slot), Instr.field22) ∈ fieldTable
    ∧ widths[(22 : Slot)] ≤ u1.ubufLen.toNat ∧ u1.ubufLen.toNat ≤ u1.cfg.ubufSize
    ∧ widths[(15 : Slot)] ≤ (zerosPushed 1).ubufLen.toNat ∧ (zerosPushed 3).ubufLen.toNat < widths[(22 : Slot)]
    ∧ (zerosPushed 1).ubufLen.toNat < widths[(0 : Slot)] ∧ State.reset.ubufLen.toNat < widths[(15 : Slot)] := by decide

theorem witness_FieldReservedRowJudgesTheMask : 2 ^ 23 ≤ (0x00800000 : Word).toNat ∧ 2 ^ 23 ≤ (0xFFFFFFFF : Word).toNat
    ∧ (0x007FFFFF : Word).toNat < 2 ^ 23 ∧ (zerosPushed 72).ubufLen.toNat ≤ (zerosPushed 72).cfg.ubufSize
    ∧ need 0x007FFFFF ≤ (zerosPushed 72).ubufLen.toNat ∧ need 0 ≤ State.reset.ubufLen.toNat := by decide

theorem witness_UnpackFollowsTheLayout : (0x007FFFFF : Word).toNat < 2 ^ 23
    ∧ need 0x007FFFFF ≤ (List.replicate 72 (0 : Byte)).length ∧ need 0 ≤ ([] : List Byte).length
    ∧ (0x007FFFFF : Word).getLsbD 22 = true := by decide

theorem witness_UnpackErrorsAreExact : 2 ^ 23 ≤ (0x00800000 : Word).toNat ∧ (0x007FFFFF : Word).toNat < 2 ^ 23
    ∧ (List.replicate 71 (0 : Byte)).length < need 0x007FFFFF ∧ ([] : List Byte).length < need 0x00008000 := by decide

/-- The ends of the three ranges, in slots 0, 2 and 15. -/
theorem witness_PackThenUnpackRoundTrips : (0x00008005 : Word).toNat < 2 ^ 23
    ∧ (∀ i : Slot, (0x00008005 : Word).getLsbD i.val = true →
        fieldInRange i (((((Vector.replicate 23 0).set 0 (-32768)).set 2 2147483647).set 15 255 : Vector Int 23)[i]) = true)
    ∧ (∀ i : Slot, (0x00008005 : Word).getLsbD i.val = true →
        fieldInRange i (((((Vector.replicate 23 0).set 0 32767).set 2 (-2147483648)).set 15 0 : Vector Int 23)[i]) = true) := by
  decide

theorem witness_ExcessBytesAreIgnored : (3 : Word).toNat < 2 ^ 23 ∧ need 3 ≤ ([0x00, 0xC8, 0x00, 0xFA] : List Byte).length := by
  decide

/-- A run that succeeds and one that fails. -/
theorem witness_RunsDifferOnlyInTheTimestamp : (nextOf (exec (.unpRun 3) u1)).map (·.uRes) = some .ok
    ∧ (nextOf (exec (.unpRun 0x00800003) u1)).map (·.uRes) = some .schemaExhausted := by decide

theorem witness_FailedRunLeavesNoRecord : rspOf (exec (.unpRun 3) busy) = some ⟨.truncatedPayload, 0x00000001⟩
    ∧ rspOf (exec (.unpRun 0x80000000) busy) = some ⟨.schemaExhausted, 0x00000100⟩ := by decide

/-- From a state with a frame and a record held, and from inside a frame, a step goes on. -/
theorem witness_EveryStepKeepsTheInvariant : Inv busy ∧ (nextOf (step (State.withFetchWord busy 40 0x21000000AA))).isSome = true
    ∧ Inv (beforeLast 0x84) ∧ (nextOf (step (State.withFetchWord (beforeLast 0x84) 40 0x3000000003))).isSome = true := by
  refine ⟨inv_busy, ?_, inv_beforeLast, ?_⟩ <;> decide

theorem witness_ResetSatisfiesTheInvariant : Config.thisHardware.ok = true ∧ longCfg.ok = true ∧ bigCfg.ok = true
    ∧ { Config.thisHardware with ubufSize := 72 }.ok = true ∧ { Config.thisHardware with tsW := 64 }.ok = true := by decide

/-- A reachable state after one step. -/
theorem witness_ReachableStatesSatisfyTheInvariant :
    Reachable State.reset ∧ ∃ t, step (Machine.present (.item (.cmd 0x3000000003#40)) State.reset) = .next t ∧ Reachable t
      ∧ t.errlog = 1 ∧ decode (framePos State.reset) (.cmd 0x3000000003#40) ≠ .ok .reset := by
  refine ⟨Reachable.reset Config.thisHardware (by decide), _, rfl, ?_, by rfl, ?_⟩
  · exact Reachable.step _ _ (.item (.cmd 0x3000000003#40)) (Reachable.reset Config.thisHardware (by decide)) rfl
  · intro h
    exact absurd h (by simp [decode, show decodeCmd 0x3000000003#40 = .ok (.decByte 0x03) from rfl])

theorem witness_TheBlockNeverStops : Inv State.reset ∧ Inv busy := ⟨inv_reset, inv_busy⟩

theorem witness_EveryOperationAnswersWithinTheMatrix : Inv longReset ∧ Inv (beforeLast 0x84) := ⟨inv_longReset, inv_beforeLast⟩

theorem witness_ErrlogIsSticky : (Instr.encPush 0 ≠ .reset) ∧ logOf (exec (.encPush 0) State.reset) = some 0x00000200
    ∧ logOf (exec .nop busy) = some 0x00002001 ∧ (nextOf (exec .reset busy)).isSome = true
    ∧ (decode .header (.cmd 0xFF00000000#40)).toOption = none := by decide

theorem witness_EmittedBytesAreAppended : emittedOf (exec (.encStart 0) State.reset) = some [0x02, 0x00, 0x00, 0x00, 0x03]
    ∧ (emittedOf (exec (.encPush 0xAA) busy)).map List.length = some 4 ∧ rspOf (exec (.encStart 5) busy) = some ⟨.illegalState, 0⟩ := by
  decide

theorem witness_BuffersChangeOnlyWhereStored : Inv (beforeLast 0x84) ∧ givenByte .frameTerminator = some 0x03
    ∧ rxStoredAt 0x03 (beforeLast 0x84) = some 5 ∧ rxStoredAt 0x03 State.reset = none
    ∧ (nextOf (exec .frameTerminator (beforeLast 0x84))).isSome = true ∧ Inv busy
    ∧ busy.ubufLen.toNat < busy.cfg.ubufSize ∧ (nextOf (exec (.unpPush 7) busy)).isSome = true ∧ givenByte .reset = none := by
  refine ⟨inv_beforeLast, rfl, rfl, rfl, ?_, inv_busy, ?_, ?_, rfl⟩ <;> decide

theorem witness_ReadsChangeNothing : rspOf (exec (.csrRd 0x0B) busy) = some ⟨.ok, 0x00002001⟩
    ∧ rspOf (exec (.decRd 0) busy) = some ⟨.ok, 4⟩ ∧ rspOf (exec (.unpRd 1) busy) = some ⟨.absent, 0⟩
    ∧ rspOf (exec (.schRd 22) busy) = some ⟨.ok, 0x0003E80C⟩ ∧ rspOf (exec (.decRd 0) State.reset) = some ⟨.noData, 0⟩
    ∧ rspOf (exec (.unpRd 31) busy) = some ⟨.indexRange, 0⟩ := by decide

theorem witness_UnitsAreIndependent : unitOf (.crcUpd 1) ≠ .enc ∧ (Instr.crcUpd 1 ≠ .reset)
    ∧ (nextOf (exec (.crcUpd 1) busy)).isSome = true ∧ unitOf (.encPush 1) ≠ .crc
    ∧ (nextOf (exec (.encPush 1) busy)).isSome = true ∧ unitOf (.decByte 2) ≠ .unp
    ∧ (nextOf (exec (.decByte 2) busy)).isSome = true ∧ unitOf .unpClr ≠ .dec ∧ (nextOf (exec .unpClr busy)).isSome = true := by
  decide

/-- One operation of each of two units, both orders running. -/
theorem witness_OperationsOfDifferentUnitsCommute : unitOf (.encPush 1) ≠ unitOf (.decByte 2) ∧ unitOf (.encPush 1) ≠ .sys
    ∧ unitOf (.decByte 2) ≠ .sys ∧ ((nextOf (exec (.encPush 1) busy)).bind fun t => nextOf (exec (.decByte 2) t)).isSome = true := by
  decide

/-- Runs that answer `OK`, by each kind of instruction that runs the unpacker; a run that fails; other instructions of the
unpacker with a record held. -/
theorem witness_ParametersAndPortAreNotWritten :
    runsUnpacker (.unpRun 3) ∧ rspOf (exec (.unpRun 3) u1) = some ⟨.ok, 4⟩
    ∧ runsUnpacker .field22 ∧ rspOf (exec .field22 u1) = some ⟨.ok, 4⟩
    ∧ runsUnpacker (.fieldReserved 0) ∧ rspOf (exec (.fieldReserved 0) u1) = some ⟨.ok, 0⟩
    ∧ rspOf (exec (.unpRun 0x00800000) u1) = some ⟨.schemaExhausted, 1⟩
    ∧ ¬runsUnpacker (.unpPush 7) ∧ rspOf (exec (.unpPush 7) busy) = some ⟨.ok, 3⟩
    ∧ ¬runsUnpacker (.unpRd 0) ∧ rspOf (exec (.unpRd 0) busy) = some ⟨.ok, 200⟩ := by
  refine ⟨.inl ⟨3, rfl⟩, ?_, .inr (.inl ?_), ?_, .inr (.inr ⟨0, rfl⟩), ?_, ?_, ?_, ?_, ?_, ?_⟩
  case refine_2 | refine_6 | refine_8 => simp [fieldTable]
  all_goals decide

end Sys2Proof.Tests
end

section
/-! PROOFS. What a step does with the port: the rules for an empty port, for the event at its head and for an item that
decodes, and the statement of 00_scope.md they settle. -/

namespace Sys2Proof.Proofs

open Sys2Proof Sys2Proof.Machine

/-- No event is taken exactly when the host presents nothing. -/
theorem takeEvent_eq_none {s : State} : takeEvent s = none ↔ s.port = [] := by
  unfold takeEvent
  cases s.port <;> simp

/-- The position of the next received byte is told by the decoder's registers alone (R93), whatever stands in the port. -/
@[simp] theorem framePos_with_port (s : State) (rest : List PortEvent) :
    framePos { s with port := rest } = framePos s := rfl

theorem runItem_of_decode_ok {item : HostItem} {s : State} {i : Instr} (hdec : decode (framePos s) item = .ok i) :
    runItem item s = exec i s := by
  unfold runItem
  rw [hdec]

theorem step_of_port_nil {s : State} (hport : s.port = []) : step s = .next s := by
  unfold step
  rw [takeEvent_eq_none.2 hport]

theorem step_of_port_cons {s : State} {e : PortEvent} {rest : List PortEvent} (hport : s.port = e :: rest) :
    step s = runEvent e { s with port := rest } := by
  unfold step
  rw [takeEvent_eq_some.2 ⟨rest, hport, rfl⟩]

/-- The instruction is the one the item decodes to before it is taken: taking it does not move the frame position. -/
theorem step_of_port_item {s : State} {item : HostItem} {rest : List PortEvent} {i : Instr}
    (hport : s.port = .item item :: rest) (hdec : decode (framePos s) item = .ok i) :
    step s = exec i { s with port := rest } :=
  calc step s = runItem item { s with port := rest } := step_of_port_cons hport
    _ = exec i { s with port := rest } := runItem_of_decode_ok (by rwa [framePos_with_port])

/-- Settles O4: the rules for an item that decodes and for an empty port. The model needs no well-formedness here, for
whatever an item decodes to is executed. -/
theorem stepRunsTheDecodedInstruction : Obligations.StepRunsTheDecodedInstruction :=
  ⟨fun _ _ _ _ hport hdec _ => step_of_port_item hport hdec, fun _ => step_of_port_nil⟩

end Sys2Proof.Proofs
end

section
/-! PROOFS. What the 43 rows have in common: they are the sixteen operations of the command port (R107, log 1), and whatever
one of them but `RESET` does, it answers, logs the bit of its status, and keeps the parameters and the port. -/

namespace Sys2Proof.Proofs

open Sys2Proof Sys2Proof.Machine
open Sys2Proof.Spec (statusBit givenByte fieldTable runsUnpacker)

/-! ### The rows that stand for an operation -/

/-- The mask an instruction runs the unpacker under, for `UNP.RUN` and the rows that stand for it (R103, log 1). -/
def givenMask (i : Instr) : Option Word :=
  match i, encode i with
  | .unpRun m, _ => some m
  | _, .mask m => some m
  | _, _ => none

/-- A FRAME row is `DEC.BYTE` of its byte (log 1). -/
theorem exec_of_givenByte {i : Instr} {b : Byte} (hb : givenByte i = some b) (s : State) :
    exec i s = orFault (takeByte b s) := by
  cases i <;> cases hb <;> rfl

/-- A FIELD row is `UNP.RUN` of its mask (log 1). -/
theorem exec_of_givenMask {i : Instr} {m : Word} (hm : givenMask i = some m) (s : State) :
    exec i s = orFault (runMask m s) := by
  cases i <;> cases hm <;> rfl

theorem runsUnpacker_iff_givenMask {i : Instr} : runsUnpacker i ↔ ∃ m, givenMask i = some m := by
  cases i <;> simp [runsUnpacker, fieldTable, givenMask, encode]

/-- Case analysis over the sixteen operations: a row that gives the decoder a byte, a row that runs the unpacker, or one of
the fourteen others. -/
theorem instr_cases {motive : Instr → Prop}
    (nop : motive .nop) (reset : motive .reset) (csrRd : ∀ n, motive (.csrRd n))
    (crcClr : motive .crcClr) (crcUpd : ∀ b, motive (.crcUpd b))
    (encStart : ∀ len, motive (.encStart len)) (encPush : ∀ b, motive (.encPush b)) (encAbort : motive .encAbort)
    (byte : ∀ i b, givenByte i = some b → motive i) (decRd : ∀ idx, motive (.decRd idx)) (decDrop : motive .decDrop)
    (unpClr : motive .unpClr) (unpPush : ∀ b, motive (.unpPush b)) (run : ∀ i m, givenMask i = some m → motive i)
    (unpRd : ∀ slot, motive (.unpRd slot)) (schRd : ∀ slot, motive (.schRd slot)) (i : Instr) : motive i := by
  cases i with
  | nop => exact nop
  | reset => exact reset
  | csrRd n => exact csrRd n
  | crcClr => exact crcClr
  | crcUpd b => exact crcUpd b
  | encStart len => exact encStart len
  | encPush b => exact encPush b
  | encAbort => exact encAbort
  | decByte | frameShort | frameLong | frameTerminator => exact byte _ _ rfl
  | decRd idx => exact decRd idx
  | decDrop => exact decDrop
  | unpClr => exact unpClr
  | unpPush b => exact unpPush b
  | unpRd slot => exact unpRd slot
  | schRd slot => exact schRd slot
  | _ => exact run _ _ rfl

/-! ### Completing: what every operation but `RESET` does to the log, the parameters and the port -/

/-- The log after an answer with status `st` (R31, R251, R258). -/
def statusLog (st : Status) (log : Word) : Word := (statusBit st).elim log fun k => withLogBit k log

@[simp] theorem statusBit_protoError (e : ProtoError) : statusBit e.status = some e.logBit := by cases e <;> rfl

@[simp] theorem statusBit_portRefusal (r : PortRefusal) : statusBit r.status = some r.logBit := by cases r <;> rfl

/-- From `s` to `t` the machine answered, set exactly the log bit of the status answered (R31), and wrote neither the
parameters (R35) nor what the host presents next. -/
structure Completes (s t : State) : Prop where
  answers : ∃ r, t.rsp = some r ∧ t.errlog = statusLog r.status s.errlog
  cfg : t.cfg = s.cfg
  port : t.port = s.port

/-- Before the answer, an operation has touched neither the log nor the parameters nor the port. -/
abbrev Undisturbed (s u : State) : Prop := u.errlog = s.errlog ∧ u.cfg = s.cfg ∧ u.port = s.port

theorem completes_answer {s u : State} {st : Status} (d : Word) (bytes : List Byte) (hst : statusBit st = none)
    (hu : Undisturbed s u) : Completes s (answer st d bytes u) := by
  obtain ⟨hlog, hcfg, hport⟩ := hu
  exact ⟨⟨_, rfl, by simp [statusLog, hst, hlog]⟩, hcfg, hport⟩

theorem completes_refuse (r : PortRefusal) (s : State) : Completes s (refuse r s) :=
  ⟨⟨_, rfl, by simp [statusLog]⟩, rfl, rfl⟩

theorem completes_raise {s u : State} (e : ProtoError) (info : Word) (hu : Undisturbed s u) :
    Completes s (raise e info u) := by
  obtain ⟨hlog, hcfg, hport⟩ := hu
  exact ⟨⟨_, raise_rsp .., by simp [statusLog, hlog]⟩, by simpa using hcfg, by simpa using hport⟩

/-! ### What each operation can do -/

/-- `CSR.RD` answers a value or is refused; the state is otherwise as it was (R233). -/
theorem execCsrRd_cases {n : Byte} {s t : State} (h : execCsrRd n s = .next t) :
    (∃ v, t = answerOk v s) ∨ t = refuse .indexRange s := by
  unfold execCsrRd at h
  split at h <;> cases h
  · exact .inl ⟨_, rfl⟩
  · exact .inr rfl

/-- `DEC.RD` answers a byte or is refused (R166). -/
theorem execDecRd_cases {idx : Half} {s t : State} (h : execDecRd idx s = .next t) :
    (∃ v, t = answerOk v s) ∨ t = refuse .noData s ∨ t = refuse .indexRange s := by
  unfold execDecRd at h
  split_ifs at h
  · cases h; exact .inr (.inl rfl)
  · cases h; exact .inr (.inr rfl)
  · obtain ⟨b, -, rfl⟩ := Option.map_eq_some_iff.1 (orFault_eq_next.1 h)
    exact .inl ⟨_, rfl⟩

/-- `UNP.RD` answers a raw value, says that the field is absent, or is refused (R213). -/
theorem execUnpRd_cases {x : BitVec 5} {s t : State} (h : execUnpRd x s = .next t) :
    (∃ v, t = answerOk v s) ∨ t = answer .absent 0 [] s ∨ t = refuse .indexRange s ∨ t = refuse .noData s := by
  unfold execUnpRd at h
  split at h
  · cases h; exact .inr (.inr (.inl rfl))
  · split_ifs at h <;> cases h
    · exact .inr (.inr (.inr rfl))
    · exact .inr (.inl rfl)
    · exact .inl ⟨_, rfl⟩

/-- `SCH.RD` answers a schema word or is refused (R195). -/
theorem execSchRd_cases {x : BitVec 5} {s t : State} (h : execSchRd x s = .next t) :
    (∃ v, t = answerOk v s) ∨ t = refuse .indexRange s := by
  unfold execSchRd at h
  split at h <;> cases h
  · exact .inr rfl
  · exact .inl ⟨_, rfl⟩

/-- `ENC.START` is refused, emits the whole empty frame, or begins a frame (R143). -/
theorem execEncStart_cases {len : Half} {s t : State} (h : execEncStart len s = .next t) :
    (∃ r, t = refuse r s)
      ∨ (s.encState = .idle ∧ ∃ bytes, t = answerEmit bytes { s with encCrc := Config.crcInit })
      ∨ (len ≠ 0 ∧ ∃ bytes, t = answerEmit bytes { s with encCrc := Config.crcInit, encRem := len, encState := .pay }) := by
  unfold execEncStart at h
  split_ifs at h with hbusy hlen hzero <;> cases h
  · exact .inl ⟨_, rfl⟩
  · exact .inl ⟨_, rfl⟩
  · exact .inr (.inl ⟨by simpa using hbusy, _, rfl⟩)
  · exact .inr (.inr ⟨hzero, _, rfl⟩)

/-- `ENC.PUSH` is refused, ends the frame at the last byte, or counts one byte down (R144). -/
theorem execEncPush_cases {b : Byte} {s t : State} (h : execEncPush b s = .next t) :
    t = refuse .illegalState s
      ∨ (∃ c bytes, t = answerEmit bytes { s with encCrc := c, encRem := 0, encState := .idle })
      ∨ (s.encState = .pay ∧ s.encRem ≠ 1 ∧ ∃ c bytes, t = answerEmit bytes { s with encCrc := c, encRem := s.encRem - 1 }) := by
  unfold execEncPush at h
  split_ifs at h with hidle hlast <;> cases h
  · exact .inl rfl
  · exact .inr (.inl ⟨_, _, rfl⟩)
  · exact .inr (.inr ⟨by simpa using hidle, hlast, _, _, rfl⟩)

/-- `UNP.PUSH` is refused on a full buffer or stores its byte behind the others (R211). -/
theorem execUnpPush_cases {b : Byte} {s t : State} (h : execUnpPush b s = .next t) :
    t = refuse .bufferFull s
      ∨ (s.ubufLen.toNat < s.cfg.ubufSize ∧ ∃ d,
          t = answerOk d { s with ubuf := s.ubuf.write s.ubufLen.toNat b, ubufLen := s.ubufLen + 1 }) := by
  unfold execUnpPush at h
  split_ifs at h with hfull
  · cases h; exact .inl rfl
  · obtain ⟨m, hm, rfl⟩ := Option.map_eq_some_iff.1 (orFault_eq_next.1 h)
    obtain ⟨hlt, rfl⟩ := writeByte_eq_some.1 hm
    exact .inr ⟨hlt, _, rfl⟩

/-! The decoder's state chooses the case of R165. -/

theorem takeByte_hdr {b : Byte} {s : State} (hst : s.decState = .hdr) : takeByte b s = decHeader b s := by
  simp only [takeByte, hst]

theorem takeByte_len {b : Byte} {s : State} (hst : s.decState = .len) : takeByte b s = decLen b s := by
  simp only [takeByte, hst]

theorem takeByte_lenh {b : Byte} {s : State} (hst : s.decState = .lenh) : takeByte b s = decLenHigh b s := by
  simp only [takeByte, hst]

theorem takeByte_lenl {b : Byte} {s : State} (hst : s.decState = .lenl) : takeByte b s = decLenLow b s := by
  simp only [takeByte, hst]

theorem takeByte_acc {b : Byte} {s : State} (hst : s.decState = .acc) : takeByte b s = decAcc b s := by
  simp only [takeByte, hst]

/-- A run of the unpacker holds the record `unpack` gives, or raises one of the two schema errors (R212). -/
theorem runMask_cases {mask : Word} {s t : State} (h : runMask mask s = some t) :
    (∃ raw valid consumed, unpack (ubufBytes s) mask = .record raw valid consumed
        ∧ t = holdRecord raw valid consumed { s with uMask := mask })
      ∨ (∃ info, t = raise .schemaExhausted info { s with uMask := mask })
      ∨ ∃ info, t = raise .truncatedPayload info { s with uMask := mask } := by
  obtain ⟨-, rfl⟩ | ⟨-, -, rfl⟩ := runMask_eq_some.1 h
  · exact .inr (.inl ⟨_, rfl⟩)
  · cases hr : unpack (ubufBytes s) mask with
    | record raw valid consumed => exact .inl ⟨_, _, _, rfl, rfl⟩
    | schemaExhausted hi => exact .inr (.inl ⟨_, rfl⟩)
    | truncatedPayload i remaining => exact .inr (.inr ⟨_, rfl⟩)

/-! ### Frames: what the decoder's and the unpacker's operation leave alone (R271) -/

/-- The check of a complete frame answers `FRAME_OK` or raises `ChecksumMismatch`. -/
theorem decCheck_frame {s t : State} (h : decCheck s = some t) :
    Completes s t ∧ SameCrcUnit s t ∧ SameEncUnit s t ∧ SameUnpUnit s t := by
  obtain ⟨-, rfl⟩ := decCheck_eq_some.1 h
  dsimp only
  split_ifs
  · exact ⟨completes_answer _ _ rfl (by and_intros <;> rfl), by and_intros <;> rfl⟩
  · exact ⟨completes_raise _ _ (by and_intros <;> rfl), by and_intros <;> rfl⟩

/-- A byte given to the decoder completes, and writes no other unit. -/
theorem takeByte_frame {b : Byte} {s t : State} (h : takeByte b s = some t) :
    Completes s t ∧ SameCrcUnit s t ∧ SameEncUnit s t ∧ SameUnpUnit s t := by
  cases hst : s.decState with
  | hdr =>
    rw [takeByte_hdr hst, decHeader_eq, Option.some.injEq] at h
    subst h
    split_ifs
    · exact ⟨completes_answer _ _ rfl (by and_intros <;> rfl), by and_intros <;> rfl⟩
    · exact ⟨completes_answer _ _ rfl (by and_intros <;> rfl), by and_intros <;> rfl⟩
    · exact ⟨completes_raise _ _ (by and_intros <;> rfl), by and_intros <;> rfl⟩
  | len =>
    rw [takeByte_len hst, decLen_eq, Option.some.injEq] at h
    subst h
    exact ⟨completes_answer _ _ rfl (by and_intros <;> rfl), by and_intros <;> rfl⟩
  | lenh =>
    rw [takeByte_lenh hst, decLenHigh_eq, Option.some.injEq] at h
    subst h
    exact ⟨completes_answer _ _ rfl (by and_intros <;> rfl), by and_intros <;> rfl⟩
  | lenl =>
    rw [takeByte_lenl hst, decLenLow_eq, Option.some.injEq] at h
    subst h
    exact ⟨completes_answer _ _ rfl (by and_intros <;> rfl), by and_intros <;> rfl⟩
  | acc =>
    rw [takeByte_acc hst] at h
    obtain ⟨-, ⟨-, rfl⟩ | ⟨-, -, rfl⟩ | ⟨-, -, hcheck⟩⟩ := decAcc_eq_some.1 h
    · exact ⟨completes_answer _ _ rfl (by and_intros <;> rfl), by and_intros <;> rfl⟩
    · exact ⟨completes_raise _ _ (by and_intros <;> rfl), by and_intros <;> rfl⟩
    · obtain ⟨⟨hans, hcfg, hport⟩, hframe⟩ := decCheck_frame hcheck
      exact ⟨⟨hans, hcfg, hport⟩, hframe⟩

/-- A run of the unpacker completes, and writes no other unit. -/
theorem runMask_frame {mask : Word} {s t : State} (h : runMask mask s = some t) :
    Completes s t ∧ SameCrcUnit s t ∧ SameEncUnit s t ∧ SameDecUnit s t := by
  obtain ⟨raw, valid, consumed, -, rfl⟩ | ⟨info, rfl⟩ | ⟨info, rfl⟩ := runMask_cases h
  · exact ⟨completes_answer _ _ rfl (by and_intros <;> rfl), by and_intros <;> rfl⟩
  · exact ⟨completes_raise _ _ (by and_intros <;> rfl), by and_intros <;> rfl⟩
  · exact ⟨completes_raise _ _ (by and_intros <;> rfl), by and_intros <;> rfl⟩

/-- Every operation but `RESET` completes. -/
theorem exec_completes {i : Instr} {s t : State} (hi : i ≠ .reset) (h : exec i s = .next t) : Completes s t := by
  have answered (d : Word) : Completes s (answerOk d s) := completes_answer d [] rfl (by and_intros <;> rfl)
  cases i using instr_cases with
  | nop => cases h; exact answered _
  | reset => exact absurd rfl hi
  | csrRd n =>
    obtain ⟨v, rfl⟩ | rfl := execCsrRd_cases h
    · exact answered v
    · exact completes_refuse _ s
  | crcClr | crcUpd b | encAbort | decDrop | unpClr => cases h; exact completes_answer _ [] rfl (by and_intros <;> rfl)
  | encStart len =>
    obtain ⟨r, rfl⟩ | ⟨-, bytes, rfl⟩ | ⟨-, bytes, rfl⟩ := execEncStart_cases h
    · exact completes_refuse r s
    · exact completes_answer _ _ rfl (by and_intros <;> rfl)
    · exact completes_answer _ _ rfl (by and_intros <;> rfl)
  | encPush b =>
    obtain rfl | ⟨c, bytes, rfl⟩ | ⟨-, -, c, bytes, rfl⟩ := execEncPush_cases h
    · exact completes_refuse _ s
    · exact completes_answer _ _ rfl (by and_intros <;> rfl)
    · exact completes_answer _ _ rfl (by and_intros <;> rfl)
  | byte i b hb => exact (takeByte_frame (orFault_eq_next.1 (exec_of_givenByte hb s ▸ h))).1
  | decRd idx =>
    obtain ⟨v, rfl⟩ | rfl | rfl := execDecRd_cases h
    · exact answered v
    · exact completes_refuse _ s
    · exact completes_refuse _ s
  | unpPush b =>
    obtain rfl | ⟨-, d, rfl⟩ := execUnpPush_cases h
    · exact completes_refuse _ s
    · exact completes_answer _ _ rfl (by and_intros <;> rfl)
  | run i m hm => exact (runMask_frame (orFault_eq_next.1 (exec_of_givenMask hm s ▸ h))).1
  | unpRd x =>
    obtain ⟨v, rfl⟩ | rfl | rfl | rfl := execUnpRd_cases h
    · exact answered v
    · exact completes_answer _ _ rfl (by and_intros <;> rfl)
    · exact completes_refuse _ s
    · exact completes_refuse _ s
  | schRd x =>
    obtain ⟨v, rfl⟩ | rfl := execSchRd_cases h
    · exact answered v
    · exact completes_refuse _ s

end Sys2Proof.Proofs
end

section
/-! PROOFS. The parameters, the port and the draw counter (R35, R196, R17): who writes them. -/

namespace Sys2Proof.Proofs

open Sys2Proof Sys2Proof.Machine
open Sys2Proof.Spec (runsUnpacker)

/-- A run draws a timestamp, and latches it, exactly when it answers `OK` (R212, R218). -/
theorem runMask_draws {mask : Word} {s t : State} (h : runMask mask s = some t) :
    ((∃ r, t.rsp = some r ∧ r.status = .ok) ∧ t.draws = s.draws + 1
        ∧ t.uTs = (Config.timeIn s.cfg.tsW s.draws).toNat)
      ∨ (¬(∃ r, t.rsp = some r ∧ r.status = .ok) ∧ t.draws = s.draws) := by
  obtain ⟨raw, valid, consumed, -, rfl⟩ | ⟨info, rfl⟩ | ⟨info, rfl⟩ := runMask_cases h
  · exact .inl ⟨⟨_, rfl, rfl⟩, rfl, rfl⟩
  · exact .inr ⟨by simp [ProtoError.status], rfl⟩
  · exact .inr ⟨by simp [ProtoError.status], rfl⟩

/-- An operation that does not run the unpacker draws nothing, `RESET` included. -/
theorem exec_draws_of_not_runsUnpacker {i : Instr} {s t : State} (hi : ¬runsUnpacker i) (h : exec i s = .next t) :
    t.draws = s.draws := by
  cases i using instr_cases with
  | nop | reset | crcClr | crcUpd b | encAbort | decDrop | unpClr => cases h; rfl
  | csrRd n => obtain ⟨v, rfl⟩ | rfl := execCsrRd_cases h <;> rfl
  | encStart len => obtain ⟨r, rfl⟩ | ⟨-, bytes, rfl⟩ | ⟨-, bytes, rfl⟩ := execEncStart_cases h <;> rfl
  | encPush b => obtain rfl | ⟨c, bytes, rfl⟩ | ⟨-, -, c, bytes, rfl⟩ := execEncPush_cases h <;> rfl
  | byte i b hb =>
    obtain ⟨-, -, -, hunp⟩ := takeByte_frame (orFault_eq_next.1 (exec_of_givenByte hb s ▸ h))
    obtain ⟨-, -, -, -, -, -, -, -, hdraws⟩ := hunp
    exact hdraws
  | decRd idx => obtain ⟨v, rfl⟩ | rfl | rfl := execDecRd_cases h <;> rfl
  | unpPush b => obtain rfl | ⟨-, d, rfl⟩ := execUnpPush_cases h <;> rfl
  | run i m hm => exact absurd (runsUnpacker_iff_givenMask.2 ⟨m, hm⟩) hi
  | unpRd x => obtain ⟨v, rfl⟩ | rfl | rfl | rfl := execUnpRd_cases h <;> rfl
  | schRd x => obtain ⟨v, rfl⟩ | rfl := execSchRd_cases h <;> rfl

/-- `RESET` keeps them too: they are no registers of the block. -/
theorem exec_cfg_port {i : Instr} {s t : State} (h : exec i s = .next t) : t.cfg = s.cfg ∧ t.port = s.port := by
  by_cases hi : i = .reset
  · subst hi; cases h; exact ⟨rfl, rfl⟩
  · have hc := exec_completes hi h
    exact ⟨hc.cfg, hc.port⟩

/-- Settles O59. -/
theorem parametersAndPortAreNotWritten : Obligations.ParametersAndPortAreNotWritten := by
  intro i s t h
  obtain ⟨hcfg, hport⟩ := exec_cfg_port h
  refine ⟨hcfg, hport, ?_⟩
  by_cases hrun : runsUnpacker i
  · obtain ⟨m, hm⟩ := runsUnpacker_iff_givenMask.1 hrun
    obtain ⟨hok, hdraws⟩ | ⟨hnot, hdraws⟩ := runMask_draws (orFault_eq_next.1 (exec_of_givenMask hm s ▸ h))
    · exact ⟨fun _ => hdraws, fun hno => absurd ⟨hrun, hok⟩ hno⟩
    · exact ⟨fun ⟨_, hok⟩ => absurd hok hnot, fun _ => hdraws⟩
  · exact ⟨fun ⟨hyes, _⟩ => absurd hyes hrun, fun _ => exec_draws_of_not_runsUnpacker hrun h⟩

end Sys2Proof.Proofs
end

section
/-! PROOFS. What a successful walk of the unpacker delivers (R100, R202 to R205): how far it got, which fields are present,
and that every raw value is extended from its field. -/

namespace Sys2Proof.Proofs

open Sys2Proof Sys2Proof.Machine

/-- A raw value extended from the bytes of slot `i`: the sign from 2 bytes, zeros from an opaque one (R203, R205). -/
abbrev RawFits (i : Slot) (v : Word) : Prop :=
  (isOpaqueSlot i = false ∧ width i = 2 → v = sext16 (v.setWidth 16))
    ∧ (isOpaqueSlot i = true → v = zext8 (v.setWidth 8))

/-- The raw values of a record: 0 in an absent slot, extended from the field in a present one (R56 items 9 and 10). -/
structure FieldsHeld (valid : BitVec 23) (raw : Vector Word 23) : Prop where
  absent : ∀ i : Slot, hasBit valid i = false → raw[i] = 0
  present : ∀ i : Slot, hasBit valid i = true → RawFits i raw[i]

theorem sext16_setWidth (h : Half) : sext16 ((sext16 h).setWidth 16) = sext16 h := by
  rw [show (sext16 h).setWidth 16 = h by
    ext k hk
    have hk32 : k < 32 := by omega
    simp [sext16, BitVec.getElem_signExtend, hk, hk32]]

theorem zext8_setWidth (b : Byte) : zext8 ((zext8 b).setWidth 8) = zext8 b := by
  simp [zext8]

theorem fieldRaw_fits (i : Slot) (payload : List Byte) (o : Nat) : RawFits i (fieldRaw i payload o) := by
  unfold RawFits fieldRaw
  cases isOpaqueSlot i
  · refine ⟨fun ⟨_, hw⟩ => ?_, by simp⟩
    simp only [hw, if_true, Bool.false_eq_true, if_false]
    exact (sext16_setWidth _).symm
  · exact ⟨by simp, fun _ => (zext8_setWidth _).symm⟩

theorem fieldsHeld_none : FieldsHeld 0 (Vector.replicate 23 0) :=
  ⟨fun i _ => by simp, fun i h => by simp [hasBit] at h⟩

/-- Setting one presence bit makes that slot present and no other. -/
theorem hasBit_or_slot (valid : BitVec 23) (i j : Slot) :
    hasBit (valid ||| (1#23 <<< i.val)) j = (hasBit valid j || decide (j = i)) := by
  have hone : (1#23 <<< i.val).getLsbD j.val = decide (j = i) := by
    have hj := j.isLt
    rw [BitVec.getLsbD_shiftLeft, BitVec.getLsbD_one, Bool.eq_iff_iff]
    simp only [Bool.and_eq_true, Bool.not_eq_true', decide_eq_true_eq, decide_eq_false_iff_not, Fin.ext_iff]
    omega
  rw [hasBit, BitVec.getLsbD_or, hone, hasBit]

theorem getElem_set_slot (raw : Vector Word 23) (i j : Slot) (v : Word) :
    (raw.set i v)[j] = if j = i then v else raw[j] := by
  by_cases hji : j = i
  · simp [hji]
  · have hne : i.val ≠ j.val := fun he => hji (Fin.ext he.symm)
    simp [hji, hne]

/-- Delivering a field that fits its slot keeps the record well formed. -/
theorem FieldsHeld.deliver {valid : BitVec 23} {raw : Vector Word 23} {i : Slot} {v : Word} (h : FieldsHeld valid raw)
    (hv : RawFits i v) : FieldsHeld (valid ||| (1#23 <<< i.val)) (raw.set i v) where
  absent j hj := by
    rw [hasBit_or_slot, Bool.or_eq_false_iff, decide_eq_false_iff_not] at hj
    rw [getElem_set_slot, if_neg hj.2]
    exact h.absent j hj.1
  present j hj := by
    rw [hasBit_or_slot] at hj
    rw [getElem_set_slot]
    split_ifs with hji
    · exact hji ▸ hv
    · exact h.present j (by simpa [hji] using hj)

/-- The bytes that the selected ones of some slots take. -/
def bytesOf (mask : Word) (slots : List Slot) : Nat := ((slots.filter fun i => hasBit mask i).map width).sum

theorem need_eq_bytesOf (mask : Word) : need mask = bytesOf mask allSlots := by
  simp [need, selectedBytes, bytesOf]

/-- The full record takes 72 bytes, any other no more (R100, R215). -/
theorem need_le (mask : Word) : need mask ≤ 72 :=
  calc need mask = bytesOf mask allSlots := need_eq_bytesOf mask
    _ ≤ (allSlots.map width).sum := (List.filter_sublist.map width).sum_le_sum (fun _ _ => Nat.zero_le _)
    _ = 72 := by decide

/-- A walk over one more slot is a turn at that slot, then the rest of the walk. -/
theorem walkSlots_cons_eq_ok {payload : List Byte} {mask : Word} {i : Slot} {is : List Slot} {w w' : Walk} :
    walkSlots payload mask (i :: is) w = .ok w' ↔
      ∃ u, walkSlot payload mask i w = .ok u ∧ walkSlots payload mask is u = .ok w' := by
  rw [walkSlots]
  cases walkSlot payload mask i w <;> simp

section Walk

variable {payload : List Byte} {mask : Word} {is : List Slot} {w w' : Walk}

/-- A walk that succeeds consumes the bytes of the selected slots. -/
theorem walkSlots_off (h : walkSlots payload mask is w = .ok w') : w'.off = w.off + bytesOf mask is := by
  induction is generalizing w with
  | nil => cases h; rfl
  | cons i is ih =>
    obtain ⟨u, hu, hrest⟩ := walkSlots_cons_eq_ok.1 h
    obtain ⟨hbit, rfl⟩ | ⟨hbit, -, rfl⟩ := walkSlot_eq_ok.1 hu
    · rw [ih hrest]; simp [bytesOf, hbit]
    · rw [ih hrest]; simp [bytesOf, hbit]; omega

/-- A walk never runs past the payload. -/
theorem walkSlots_off_le (h : walkSlots payload mask is w = .ok w') (hw : w.off ≤ payload.length) :
    w'.off ≤ payload.length := by
  induction is generalizing w with
  | nil => cases h; exact hw
  | cons i is ih =>
    obtain ⟨u, hu, hrest⟩ := walkSlots_cons_eq_ok.1 h
    obtain ⟨-, rfl⟩ | ⟨-, hbytes, rfl⟩ := walkSlot_eq_ok.1 hu
    · exact ih hrest hw
    · exact ih hrest (by dsimp only; omega)

/-- A walk makes the selected slots it passes present. -/
theorem hasBit_walkSlots_valid (h : walkSlots payload mask is w = .ok w') (j : Slot) :
    hasBit w'.valid j = (hasBit w.valid j || (hasBit mask j && decide (j ∈ is))) := by
  induction is generalizing w with
  | nil => cases h; simp
  | cons i is ih =>
    obtain ⟨u, hu, hrest⟩ := walkSlots_cons_eq_ok.1 h
    obtain ⟨hbit, rfl⟩ | ⟨hbit, -, rfl⟩ := walkSlot_eq_ok.1 hu
    · rw [ih hrest]
      by_cases hji : j = i <;> simp [hji, hbit]
    · rw [ih hrest, hasBit_or_slot]
      by_cases hji : j = i <;> simp [hji, hbit]

theorem walkSlots_fieldsHeld (h : walkSlots payload mask is w = .ok w') (hw : FieldsHeld w.valid w.raw) :
    FieldsHeld w'.valid w'.raw := by
  induction is generalizing w with
  | nil => cases h; exact hw
  | cons i is ih =>
    obtain ⟨u, hu, hrest⟩ := walkSlots_cons_eq_ok.1 h
    obtain ⟨-, rfl⟩ | ⟨-, -, rfl⟩ := walkSlot_eq_ok.1 hu
    · exact ih hrest hw
    · exact ih hrest (hw.deliver (fieldRaw_fits i payload w.off))

end Walk

/-- A walk over the whole schema makes exactly the selected slots present. -/
theorem walkSlots_allSlots_valid {payload : List Byte} {mask : Word} {w : Walk}
    (h : walkSlots payload mask allSlots walkStart = .ok w) : w.valid = maskSlots mask := by
  refine BitVec.eq_of_getLsbD_eq fun j hj => ?_
  have hbit := hasBit_walkSlots_valid h ⟨j, hj⟩
  simpa [hasBit, walkStart, maskSlots, hj] using hbit

/-- What a record that `unpack` returns satisfies (R202, R206 to R209). -/
theorem unpack_record {payload : List Byte} {mask : Word} {raw : Vector Word 23} {valid : BitVec 23} {consumed : Nat}
    (h : unpack payload mask = .record raw valid consumed) :
    maskReserved mask = 0 ∧ valid = maskSlots mask ∧ consumed = need mask ∧ consumed ≤ payload.length
      ∧ FieldsHeld valid raw := by
  unfold unpack at h
  split_ifs at h with hres
  cases hw : walkSlots payload mask allSlots walkStart with
  | error e => simp [hw] at h
  | ok w =>
    simp only [hw, UnpackResult.record.injEq] at h
    obtain ⟨rfl, rfl, rfl⟩ := h
    refine ⟨by simpa using hres, walkSlots_allSlots_valid hw, ?_, walkSlots_off_le hw (Nat.zero_le _),
      walkSlots_fieldsHeld hw fieldsHeld_none⟩
    rw [walkSlots_off hw, need_eq_bytesOf]
    exact Nat.zero_add _

end Sys2Proof.Proofs
end

section
/-! PROOFS. The invariant unit by unit: no unit's part of it speaks of another unit's registers (R271), so an operation has to
re-establish only the part of its own unit. -/

namespace Sys2Proof.Proofs

open Sys2Proof Sys2Proof.Machine
open Sys2Proof.Spec (statusBit)

/-- The decoder's part of the invariant (R56 items 2 to 5, R46, R47, R60). -/
structure DecInv (s : State) : Prop where
  decCounts : DecCounts s
  longOnlyWhenConfigured : LongOnlyWhenConfigured s
  resultOnlyInHdr : ResultOnlyInHdr s
  frameHeld : FrameHeld s
  geometry : Geometry s
  diagnostics : Diagnostics s
  rxbufWf : s.rxbuf.wf = true
  rxbufBounded : ∀ c ∈ s.rxbuf, c.1 < s.cfg.rxbufSize

/-- The unpacker's part of the invariant (R56 items 6 to 10, R27, R60). -/
structure UnpInv (s : State) : Prop where
  ubufBounded : UbufBounded s
  recordHeld : RecordHeld s
  noPartialRecord : NoPartialRecord s
  absentIsZero : AbsentIsZero s
  rawExtended : RawExtended s
  timestampFits : TimestampFits s
  ubufWf : s.ubuf.wf = true
  ubufInside : ∀ c ∈ s.ubuf, c.1 < s.cfg.ubufSize

theorem inv_iff {s : State} :
    Inv s ↔ s.cfg.ok = true ∧ EncCounts s ∧ DecInv s ∧ UnpInv s ∧ LogBitsAssigned s := by
  constructor
  · intro h
    obtain ⟨hrxWf, hubWf, hrxIn, hubIn⟩ := h.buffersCanonical
    exact ⟨h.cfgOk, h.encCounts, { h with rxbufWf := hrxWf, rxbufBounded := hrxIn },
      { h with ubufWf := hubWf, ubufInside := hubIn }, h.logBitsAssigned⟩
  · rintro ⟨hcfg, henc, hdec, hunp, hlog⟩
    exact { hdec, hunp with
      cfgOk := hcfg, encCounts := henc, logBitsAssigned := hlog,
      buffersCanonical := ⟨hdec.rxbufWf, hunp.ubufWf, hdec.rxbufBounded, hunp.ubufInside⟩ }

/-! ### Frames -/

theorem encCounts_of_same {s t : State} (h : EncCounts s) (he : SameEncUnit s t) : EncCounts t := by
  obtain ⟨hstate, hrem, -⟩ := he
  rw [EncCounts, hstate, hrem]
  exact h

theorem decInv_of_same {s t : State} (h : DecInv s) (hd : SameDecUnit s t) (hcfg : t.cfg = s.cfg) : DecInv t := by
  cases s
  cases t
  obtain ⟨rfl, rfl, rfl, rfl, rfl, rfl, rfl, rfl⟩ := hd
  obtain rfl := hcfg
  exact { h with }

theorem unpInv_of_same {s t : State} (h : UnpInv s) (hu : SameUnpUnit s t) (hcfg : t.cfg = s.cfg) : UnpInv t := by
  cases s
  cases t
  obtain ⟨rfl, rfl, rfl, rfl, rfl, rfl, rfl, rfl, -⟩ := hu
  obtain rfl := hcfg
  exact { h with }

/-! ### The log (R31) -/

/-- No status has an unassigned log bit. -/
theorem statusBit_assigned {st : Status} {k : Nat} (h : statusBit st = some k) : (1#32 <<< k) &&& 0xFFFFC0E0#32 = 0 := by
  cases st <;> cases h <;> rfl

theorem statusLog_assigned (st : Status) {log : Word} (h : log &&& 0xFFFFC0E0#32 = 0) :
    statusLog st log &&& 0xFFFFC0E0#32 = 0 := by
  unfold statusLog
  cases hst : statusBit st with
  | none => exact h
  | some k =>
    rw [Option.elim_some, withLogBit, BitVec.and_or_distrib_right, h, statusBit_assigned hst]
    rfl

/-- An answer never takes a bit out of the log. -/
theorem and_statusLog (st : Status) (log : Word) : log &&& statusLog st log = log := by
  unfold statusLog
  cases statusBit st with
  | none => exact BitVec.and_self
  | some k =>
    rw [Option.elim_some, withLogBit]
    ext i hi
    simp +contextual

theorem Completes.logBitsAssigned {s t : State} (hc : Completes s t) (h : LogBitsAssigned s) : LogBitsAssigned t := by
  obtain ⟨r, -, hlog⟩ := hc.answers
  rw [LogBitsAssigned, hlog]
  exact statusLog_assigned _ h

/-- After an operation the invariant is what its units' parts say. -/
theorem Completes.inv {s t : State} (hc : Completes s t) (h : Inv s) (henc : EncCounts t) (hdec : DecInv t)
    (hunp : UnpInv t) : Inv t :=
  inv_iff.2 ⟨hc.cfg ▸ h.cfgOk, henc, hdec, hunp, hc.logBitsAssigned h.logBitsAssigned⟩

section Units

variable {s t : State} (h : Inv s) (hc : Completes s t)
include h hc

/-- An operation of none of the three units with an invariant of their own. -/
theorem inv_of_same (he : SameEncUnit s t) (hd : SameDecUnit s t) (hu : SameUnpUnit s t) : Inv t := by
  obtain ⟨-, henc, hdec, hunp, -⟩ := inv_iff.1 h
  exact hc.inv h (encCounts_of_same henc he) (decInv_of_same hdec hd hc.cfg) (unpInv_of_same hunp hu hc.cfg)

theorem inv_of_encoder (he : EncCounts t) (hd : SameDecUnit s t) (hu : SameUnpUnit s t) : Inv t := by
  obtain ⟨-, -, hdec, hunp, -⟩ := inv_iff.1 h
  exact hc.inv h he (decInv_of_same hdec hd hc.cfg) (unpInv_of_same hunp hu hc.cfg)

theorem inv_of_decoder (he : SameEncUnit s t) (hd : DecInv t) (hu : SameUnpUnit s t) : Inv t := by
  obtain ⟨-, henc, -, hunp, -⟩ := inv_iff.1 h
  exact hc.inv h (encCounts_of_same henc he) hd (unpInv_of_same hunp hu hc.cfg)

theorem inv_of_unpacker (he : SameEncUnit s t) (hd : SameDecUnit s t) (hu : UnpInv t) : Inv t := by
  obtain ⟨-, henc, hdec, -, -⟩ := inv_iff.1 h
  exact hc.inv h (encCounts_of_same henc he) (decInv_of_same hdec hd hc.cfg) hu

end Units

theorem inv_answer {s : State} {st : Status} (d : Word) (hst : statusBit st = none) (h : Inv s) :
    Inv (answer st d [] s) :=
  inv_of_same h (completes_answer d [] hst (by and_intros <;> rfl)) (by and_intros <;> rfl) (by and_intros <;> rfl)
    (by and_intros <;> rfl)

theorem inv_refuse {s : State} (r : PortRefusal) (h : Inv s) : Inv (refuse r s) :=
  inv_of_same h (completes_refuse r s) (by and_intros <;> rfl) (by and_intros <;> rfl) (by and_intros <;> rfl)

end Sys2Proof.Proofs
end

section
/-! PROOFS. The encoder and the unpacker keep their parts of the invariant. -/

namespace Sys2Proof.Proofs

open Sys2Proof Sys2Proof.Machine

/-! ### The encoder (R56 item 1) -/

theorem inv_execEncStart {len : Half} {s t : State} (h : Inv s) (hexec : exec (.encStart len) s = .next t) : Inv t := by
  have hc := exec_completes (by simp) hexec
  obtain ⟨r, rfl⟩ | ⟨hidle, bytes, rfl⟩ | ⟨hlen, bytes, rfl⟩ := execEncStart_cases hexec
  · exact inv_refuse r h
  · exact inv_of_encoder h hc h.encCounts (by and_intros <;> rfl) (by and_intros <;> rfl)
  · have hrem : EncCounts (answerEmit bytes { s with encCrc := Config.crcInit, encRem := len, encState := .pay }) :=
      ⟨by simp, fun _ => by
        show 1 ≤ len.toNat
        bv_omega⟩
    exact inv_of_encoder h hc hrem (by and_intros <;> rfl) (by and_intros <;> rfl)

/-- The count does not reach 0 before the last byte: it is at least 1 in state PAY, and not 1 here. -/
theorem inv_execEncPush {b : Byte} {s t : State} (h : Inv s) (hexec : exec (.encPush b) s = .next t) : Inv t := by
  have hc := exec_completes (by simp) hexec
  obtain rfl | ⟨c, bytes, rfl⟩ | ⟨hpay, hmore, c, bytes, rfl⟩ := execEncPush_cases hexec
  · exact inv_refuse _ h
  · have hidle : EncCounts (answerEmit bytes { s with encCrc := c, encRem := 0, encState := .idle }) := by
      simp [EncCounts]
    exact inv_of_encoder h hc hidle (by and_intros <;> rfl) (by and_intros <;> rfl)
  · have hge : 1 ≤ s.encRem.toNat := h.encCounts.2 hpay
    have hrem : EncCounts (answerEmit bytes { s with encCrc := c, encRem := s.encRem - 1 }) :=
      ⟨fun hidle => absurd (hpay.symm.trans hidle) (by simp), fun _ => by
        show 1 ≤ (s.encRem - 1).toNat
        bv_omega⟩
    exact inv_of_encoder h hc hrem (by and_intros <;> rfl) (by and_intros <;> rfl)

theorem inv_execEncAbort {s t : State} (h : Inv s) (hexec : exec .encAbort s = .next t) : Inv t := by
  have hc := exec_completes (by simp) hexec
  cases hexec
  have hidle : EncCounts (answerOk 0 { s with encState := .idle, encRem := 0, encCrc := 0 }) := by
    simp [EncCounts]
  exact inv_of_encoder h hc hidle (by and_intros <;> rfl) (by and_intros <;> rfl)

/-! ### The unpacker (R56 items 6 to 10) -/

/-- With no record held the unpacker's registers are 0, and only its buffer is left to speak of. -/
theorem unpInv_of_noRecord {s : State} (hres : s.uRes ≠ .ok) (hvalid : s.uValid = 0)
    (hraw : s.uRaw = Vector.replicate 23 0) (hconsumed : s.uConsumed = 0) (hts : s.uTs = 0)
    (hlen : UbufBounded s) (hwf : s.ubuf.wf = true) (hin : ∀ c ∈ s.ubuf, c.1 < s.cfg.ubufSize) : UnpInv s where
  ubufBounded := hlen
  recordHeld := fun hok => absurd hok hres
  noPartialRecord := fun _ => ⟨hvalid, by simp [hraw], hconsumed, hts⟩
  absentIsZero := by simp [AbsentIsZero, hraw]
  rawExtended := by simp [RawExtended, hvalid, hasBit]
  timestampFits := by simp [TimestampFits, hts]
  ubufWf := hwf
  ubufInside := hin

/-- A record that `unpack` returned is held: the run's mask, its fields, a timestamp of `TS_W` bits. -/
theorem unpInv_holdRecord {mask : Word} {raw : Vector Word 23} {valid : BitVec 23} {consumed : Nat} {s : State}
    (h : UnpInv s) (hrec : unpack (ubufBytes s) mask = .record raw valid consumed) :
    UnpInv (holdRecord raw valid consumed { s with uMask := mask }) := by
  obtain ⟨hres, hvalid, hneed, hle, hfields⟩ := unpack_record hrec
  have hconsumed : (BitVec.ofNat 7 consumed).toNat = consumed := by
    have := need_le mask
    rw [BitVec.toNat_ofNat, Nat.mod_eq_of_lt (by omega)]
  have hlen : consumed ≤ s.ubufLen.toNat := by simpa [ubufBytes] using hle
  exact
    { h with
      recordHeld := fun _ => ⟨hres, hvalid, hconsumed.trans hneed, hconsumed.trans_le hlen⟩
      noPartialRecord := fun hno => absurd rfl hno
      absentIsZero := hfields.absent
      rawExtended := hfields.present
      timestampFits := BitVec.isLt _ }

theorem unpInv_runMask {mask : Word} {s t : State} (h : UnpInv s) (hrun : runMask mask s = some t) : UnpInv t := by
  obtain ⟨raw, valid, consumed, hrec, rfl⟩ | ⟨info, rfl⟩ | ⟨info, rfl⟩ := runMask_cases hrun
  · exact unpInv_holdRecord h hrec
  · exact unpInv_of_noRecord (by simp) rfl rfl rfl rfl h.ubufBounded h.ubufWf h.ubufInside
  · exact unpInv_of_noRecord (by simp) rfl rfl rfl rfl h.ubufBounded h.ubufWf h.ubufInside

/-- The buffer grows by one byte and stays within its size, so `UBUF_LEN` does not wrap and still covers the held record. -/
theorem unpInv_push {b : Byte} {d : Word} {s : State} (h : UnpInv s) (hcfg : s.cfg.ubufSize ≤ 65535)
    (hlt : s.ubufLen.toNat < s.cfg.ubufSize) :
    UnpInv (answerOk d { s with ubuf := s.ubuf.write s.ubufLen.toNat b, ubufLen := s.ubufLen + 1 }) := by
  have hsucc : (s.ubufLen + 1).toNat = s.ubufLen.toNat + 1 := by bv_omega
  exact
    { h with
      ubufBounded := hsucc.trans_le hlt
      recordHeld := fun hok => by
        obtain ⟨hres, hvalid, hneed, hle⟩ := h.recordHeld hok
        exact ⟨hres, hvalid, hneed, hle.trans (hsucc ▸ Nat.le_succ _)⟩
      ubufWf := Memory.write_wf _ _ h.ubufWf
      ubufInside := Memory.write_bounded _ hlt h.ubufInside }

theorem ubufSize_le_of_ok {c : Config} (h : c.ok = true) : c.ubufSize ≤ 65535 := by
  simp only [Config.ok, Bool.and_eq_true, decide_eq_true_eq] at h
  omega

theorem inv_execUnpPush {b : Byte} {s t : State} (h : Inv s) (hexec : exec (.unpPush b) s = .next t) : Inv t := by
  have hc := exec_completes (by simp) hexec
  obtain ⟨hcfg, -, -, hunp, -⟩ := inv_iff.1 h
  obtain rfl | ⟨hlt, d, rfl⟩ := execUnpPush_cases hexec
  · exact inv_refuse _ h
  · exact inv_of_unpacker h hc (by and_intros <;> rfl) (by and_intros <;> rfl)
      (unpInv_push hunp (ubufSize_le_of_ok hcfg) hlt)

theorem unpInv_clearUnpacker {s : State} (h : UnpInv s) : UnpInv (clearUnpacker s) :=
  unpInv_of_noRecord (by simp) rfl rfl rfl rfl (Nat.zero_le _) h.ubufWf h.ubufInside

theorem inv_execUnpClr {s t : State} (h : Inv s) (hexec : exec .unpClr s = .next t) : Inv t := by
  have hc := exec_completes (by simp) hexec
  obtain ⟨-, -, -, hunp, -⟩ := inv_iff.1 h
  cases hexec
  exact inv_of_unpacker h hc (by and_intros <;> rfl) (by and_intros <;> rfl)
    (unpInv_of_same (unpInv_clearUnpacker hunp) (by and_intros <;> rfl) rfl)

theorem inv_runMask {mask : Word} {s t : State} (h : Inv s) (hrun : runMask mask s = some t) : Inv t := by
  obtain ⟨hc, -, henc, hdec⟩ := runMask_frame hrun
  obtain ⟨-, -, -, hunp, -⟩ := inv_iff.1 h
  exact inv_of_unpacker h hc henc hdec (unpInv_runMask hunp hrun)

end Sys2Proof.Proofs
end

section
/-! PROOFS. The decoder keeps its part of the invariant, state by state of R165. Inside a frame only the count, the geometry and
the buffer are left to show; at its end the frame is either held whole or dropped. -/

namespace Sys2Proof.Proofs

open Sys2Proof Sys2Proof.Machine

/-- The header byte in `RXBUF` is that of the form `DEC_OFF` gives (R46). -/
abbrev HeaderStored (s : State) : Prop :=
  s.decOff = 2 ∧ s.rxbuf.read 0 = 0x02#8 ∨ s.decOff = 3 ∧ s.rxbuf.read 0 = 0x03#8

theorem DecInv.headerStored {s : State} (h : DecInv s) (hst : s.decState ≠ .hdr) : HeaderStored s := by
  obtain ⟨-, -, -, -, -, hhdr⟩ := h.geometry
  exact hhdr hst

/-- The long form is in use only where it is configured (R56 item 3). -/
theorem DecInv.long_of_decOff {s : State} (h : DecInv s) (hoff : s.decOff = 3) : s.cfg.longDecode = true :=
  h.longOnlyWhenConfigured (.inr (.inr hoff))

/-- Inside a frame no result is held yet, so the checksum registers are still 0 (R56 item 4, R47). -/
theorem DecInv.noResult {s : State} (h : DecInv s) (hst : s.decState ≠ .hdr) :
    s.decRes = .none ∧ s.decCrcCalc = 0 ∧ s.decCrcRecv = 0 := by
  have hres : s.decRes = .none := by
    by_contra hne
    exact hst (h.resultOnlyInHdr hne)
  exact ⟨hres, h.diagnostics.1 (by simp [hres])⟩

/-- The decoder's part inside a frame: no result, so nothing is said of a held frame or of the checksum registers. -/
theorem decInv_of_inFrame {t : State} (hres : t.decRes = .none ∧ t.decCrcCalc = 0 ∧ t.decCrcRecv = 0)
    (hcounts : DecCounts t) (hlong : LongOnlyWhenConfigured t) (hgeo : Geometry t) (hwf : t.rxbuf.wf = true)
    (hin : ∀ c ∈ t.rxbuf, c.1 < t.cfg.rxbufSize) : DecInv t where
  decCounts := hcounts
  longOnlyWhenConfigured := hlong
  resultOnlyInHdr := fun hne => absurd hres.1 hne
  frameHeld := fun hok => by simp [hres.1] at hok
  geometry := hgeo
  diagnostics := ⟨fun _ => hres.2, fun hbad => by simp [hres.1] at hbad, fun hbad => by simp [hres.1] at hbad⟩
  rxbufWf := hwf
  rxbufBounded := hin

/-- The decoder's part between frames when no frame is held: the attempt failed, or none was made. -/
theorem decInv_of_hdr {t : State} (hst : t.decState = .hdr) (hcnt : t.decCnt = 0) (hok : t.decRes ≠ .ok)
    (hoff : t.decOff = 2 ∨ t.decOff = 3) (hshort : t.decOff = 2 → t.decL.toNat ≤ 255)
    (hlong : t.decOff = 3 → t.cfg.longDecode = true) (hdiag : Diagnostics t) (hwf : t.rxbuf.wf = true)
    (hin : ∀ c ∈ t.rxbuf, c.1 < t.cfg.rxbufSize) : DecInv t where
  decCounts := by simp [DecCounts, hst, hcnt]
  longOnlyWhenConfigured := by simpa [LongOnlyWhenConfigured, hst] using hlong
  resultOnlyInHdr := fun _ => hst
  frameHeld := fun h => absurd h hok
  geometry := ⟨hoff, hshort, by simp [hst]⟩
  diagnostics := hdiag
  rxbufWf := hwf
  rxbufBounded := hin

/-- The high length byte goes above an empty low one (R91). -/
theorem loByte_high (b : Byte) : loByte (b.setWidth 16 <<< 8) = 0 := by
  ext i hi
  have hlow : i < 8 := hi
  simp [loByte, hlow]

section Takes

variable {b : Byte} {s t : State} (h : DecInv s)
include h

/-- Inside a frame, storing a byte behind the header keeps the decoder's part. -/
theorem DecInv.store {a : Nat} (b : Byte) (hst : s.decState ≠ .hdr) (hbehind : a ≠ 0) (ha : a < s.cfg.rxbufSize) :
    DecInv { s with rxbuf := s.rxbuf.write a b } := by
  obtain ⟨hoff, hshort, hlen, hlenh, hlenl, hhdr⟩ := h.geometry
  refine decInv_of_inFrame (h.noResult hst) h.decCounts h.longOnlyWhenConfigured ?_ (Memory.write_wf a b h.rxbufWf)
    (Memory.write_bounded b ha h.rxbufBounded)
  refine ⟨hoff, hshort, hlen, hlenh, hlenl, fun _ => ?_⟩
  simpa only [Memory.read_write_other b hbehind.symm] using hhdr hst

theorem decInv_decHeader (htake : decHeader b s = some t) : DecInv t := by
  have hsize := rxbufSize_ge s.cfg
  have hread := Memory.read_write_same 0 b h.rxbufWf
  have hwf := Memory.write_wf 0 b h.rxbufWf
  have hin := Memory.write_bounded b (a := 0) (by omega) h.rxbufBounded
  rw [decHeader_eq, Option.some.injEq] at htake
  subst htake
  split_ifs with hshort hlong
  · subst hshort
    exact decInv_of_inFrame ⟨rfl, rfl, rfl⟩ (by simp [DecCounts]) (by simp [LongOnlyWhenConfigured])
      (by simp [Geometry, hread]) hwf hin
  · obtain ⟨rfl, hcfg⟩ := hlong
    exact decInv_of_inFrame ⟨rfl, rfl, rfl⟩ (by simp [DecCounts]) (fun _ => hcfg)
      (by simp [Geometry, hread]) hwf hin
  · exact decInv_of_hdr rfl rfl (by simp) h.geometry.1 (by simp) h.long_of_decOff (by simp [Diagnostics])
      h.rxbufWf h.rxbufBounded

theorem decInv_decLen (hst : s.decState = .len) (htake : decLen b s = some t) : DecInv t := by
  have hne : s.decState ≠ .hdr := by simp [hst]
  have hsize := rxbufSize_ge s.cfg
  have hu := h.store b (a := 1) hne (by decide) (by omega)
  obtain ⟨-, -, hlen, -, -, -⟩ := h.geometry
  obtain ⟨hoff, -⟩ := hlen hst
  rw [decLen_eq, Option.some.injEq] at htake
  subst htake
  refine decInv_of_inFrame (hu.noResult hne) ?_ ?_ ?_ hu.rxbufWf hu.rxbufBounded
  · simp [DecCounts, frameTotal, hoff]
  · simp [LongOnlyWhenConfigured, hoff]
  · refine ⟨.inl hoff, fun _ => ?_, by simp, by simp, by simp, fun _ => hu.headerStored hne⟩
    show (b.setWidth 16).toNat ≤ 255
    bv_omega

theorem decInv_decLenHigh (hst : s.decState = .lenh) (htake : decLenHigh b s = some t) : DecInv t := by
  have hne : s.decState ≠ .hdr := by simp [hst]
  have hsize := rxbufSize_ge s.cfg
  have hu := h.store b (a := 1) hne (by decide) (by omega)
  obtain ⟨-, -, -, hlenh, -, -⟩ := h.geometry
  obtain ⟨hoff, -⟩ := hlenh hst
  rw [decLenHigh_eq, Option.some.injEq] at htake
  subst htake
  refine decInv_of_inFrame (hu.noResult hne) ?_ ?_ ?_ hu.rxbufWf hu.rxbufBounded
  · simp [DecCounts]
  · exact fun _ => h.long_of_decOff hoff
  · exact ⟨.inr hoff, by simp [hoff], by simp, by simp, fun _ => ⟨hoff, loByte_high b⟩,
      fun _ => hu.headerStored hne⟩

theorem decInv_decLenLow (hst : s.decState = .lenl) (htake : decLenLow b s = some t) : DecInv t := by
  have hne : s.decState ≠ .hdr := by simp [hst]
  have hsize := rxbufSize_ge s.cfg
  have hu := h.store b (a := 2) hne (by decide) (by omega)
  obtain ⟨-, -, -, -, hlenl, -⟩ := h.geometry
  obtain ⟨hoff, -⟩ := hlenl hst
  rw [decLenLow_eq, Option.some.injEq] at htake
  subst htake
  refine decInv_of_inFrame (hu.noResult hne) ?_ ?_ ?_ hu.rxbufWf hu.rxbufBounded
  · simp [DecCounts, frameTotal, hoff]
  · exact fun _ => h.long_of_decOff hoff
  · exact ⟨.inr hoff, by simp [hoff], by simp, by simp, by simp, fun _ => hu.headerStored hne⟩

/-- Counting a byte of a frame that it does not complete; a frame of either form is far shorter than `DEC_CNT` can count. -/
theorem decInv_countByte (hst : s.decState = .acc) (hmore : s.decCnt.toNat + 1 < frameTotal s) :
    DecInv (answerPending (s.decCnt.toNat + 1) s) := by
  obtain ⟨-, -, -, -, hacc⟩ := h.decCounts
  obtain ⟨hfrom, -⟩ := hacc hst
  have hcnt : (BitVec.ofNat 17 (s.decCnt.toNat + 1)).toNat = s.decCnt.toNat + 1 := by
    have hL := s.decL.isLt
    have hoff := s.decOff.isLt
    unfold frameTotal at hmore
    rw [BitVec.toNat_ofNat, Nat.mod_eq_of_lt (by omega)]
  refine decInv_of_inFrame (h.noResult (by simp [hst])) ?_ h.longOnlyWhenConfigured h.geometry h.rxbufWf h.rxbufBounded
  simp only [DecCounts, answerPending_decState, hst, answerPending_decCnt, answerPending_decOff, hcnt]
  exact ⟨by simp, by simp, by simp, by simp, fun _ => ⟨hfrom.trans (Nat.le_succ _), hmore⟩⟩

/-- A wrong terminator drops the frame. -/
theorem decInv_badTerminator (hst : s.decState = .acc) (info : Word) : DecInv (raise .badTerminator info s) := by
  obtain ⟨-, hcrc⟩ := h.noResult (by simp [hst])
  obtain ⟨hoff, hshort, -⟩ := h.geometry
  exact decInv_of_hdr rfl rfl (by simp) hoff hshort h.long_of_decOff (by simpa [Diagnostics] using hcrc)
    h.rxbufWf h.rxbufBounded

/-- The check of a frame whose header and terminator are right holds it, or drops it when the checksums differ. -/
theorem decInv_decCheck (hhdr : HeaderStored s) (hterm : s.rxbuf.read (s.decL.toNat + s.decOff.toNat + 2) = 0x03#8)
    (hcheck : decCheck s = some t) : DecInv t := by
  obtain ⟨hoff, hshort, -⟩ := h.geometry
  obtain ⟨-, rfl⟩ := decCheck_eq_some.1 hcheck
  dsimp only
  split_ifs with heq
  · exact
    { decCounts := by simp [DecCounts]
      longOnlyWhenConfigured := by simpa [LongOnlyWhenConfigured] using h.long_of_decOff
      resultOnlyInHdr := fun _ => rfl
      frameHeld := fun _ => ⟨heq, rfl, hhdr, hterm⟩
      geometry := ⟨hoff, hshort, by simp⟩
      diagnostics := by simp [Diagnostics]
      rxbufWf := h.rxbufWf
      rxbufBounded := h.rxbufBounded }
  · exact decInv_of_hdr rfl rfl (by simp) hoff hshort h.long_of_decOff (by simpa [Diagnostics] using heq)
      h.rxbufWf h.rxbufBounded

theorem decInv_decAcc (hst : s.decState = .acc) (htake : decAcc b s = some t) : DecInv t := by
  obtain ⟨-, -, -, -, hacc⟩ := h.decCounts
  obtain ⟨hfrom, hbelow⟩ := hacc hst
  obtain ⟨hroom, hcase⟩ := decAcc_eq_some.1 htake
  have hne : s.decState ≠ .hdr := by simp [hst]
  have hbehind : s.decCnt.toNat ≠ 0 := by
    obtain ⟨hoff, -⟩ | ⟨hoff, -⟩ := h.headerStored hne <;> simp [hoff] at hfrom <;> omega
  have hu := h.store b hne hbehind hroom
  obtain ⟨hmore, rfl⟩ | ⟨-, -, rfl⟩ | ⟨hlast, rfl, hcheck⟩ := hcase
  · exact decInv_countByte hu hst hmore
  · exact decInv_badTerminator hu hst _
  · have hindex : s.decL.toNat + s.decOff.toNat + 2 = s.decCnt.toNat := by
      unfold frameTotal at hbelow hlast
      omega
    refine decInv_decCheck hu (hu.headerStored hne) ?_ hcheck
    dsimp only
    rw [hindex]
    exact Memory.read_write_same _ _ h.rxbufWf

theorem decInv_takeByte (htake : takeByte b s = some t) : DecInv t := by
  cases hst : s.decState with
  | hdr => exact decInv_decHeader h (takeByte_hdr hst ▸ htake)
  | len => exact decInv_decLen h hst (takeByte_len hst ▸ htake)
  | lenh => exact decInv_decLenHigh h hst (takeByte_lenh hst ▸ htake)
  | lenl => exact decInv_decLenLow h hst (takeByte_lenl hst ▸ htake)
  | acc => exact decInv_decAcc h hst (takeByte_acc hst ▸ htake)

theorem decInv_dropFrame : DecInv (dropFrame s) :=
  decInv_of_hdr rfl rfl (by simp) (.inl rfl) (by simp) (by simp) (by simp [Diagnostics]) h.rxbufWf h.rxbufBounded

end Takes

theorem inv_takeByte {b : Byte} {s t : State} (h : Inv s) (htake : takeByte b s = some t) : Inv t := by
  obtain ⟨hc, -, henc, hunp⟩ := takeByte_frame htake
  obtain ⟨-, -, hdec, -, -⟩ := inv_iff.1 h
  exact inv_of_decoder h hc henc (decInv_takeByte hdec htake) hunp

theorem inv_execDecDrop {s t : State} (h : Inv s) (hexec : exec .decDrop s = .next t) : Inv t := by
  have hc := exec_completes (by simp) hexec
  obtain ⟨-, -, hdec, -, -⟩ := inv_iff.1 h
  cases hexec
  exact inv_of_decoder h hc (by and_intros <;> rfl)
    (decInv_of_same (decInv_dropFrame hdec) (by and_intros <;> rfl) rfl) (by and_intros <;> rfl)

end Sys2Proof.Proofs
end

section
/-! PROOFS. The invariant of the machine (R56): every operation, every event and so every step keeps it, reset establishes it,
and the log of every reachable state holds assigned bits only. -/

namespace Sys2Proof.Proofs

open Sys2Proof Sys2Proof.Machine
open Sys2Proof.Spec (statusBit)

/-- A reset keeps the parameters and the buffers' bytes and puts every register at a value the invariant allows. -/
theorem inv_resetBlock {s : State} (h : Inv s) : Inv (resetBlock s) := by
  obtain ⟨hcfg, -, hdec, hunp, -⟩ := inv_iff.1 h
  have hdec' : DecInv (resetBlock s) :=
    decInv_of_same (decInv_dropFrame hdec) (by and_intros <;> rfl) rfl
  have hunp' : UnpInv (resetBlock s) :=
    unpInv_of_same (unpInv_clearUnpacker hunp) (by and_intros <;> rfl) rfl
  exact inv_iff.2 ⟨hcfg, by simp [EncCounts], hdec', hunp', by simp [LogBitsAssigned]⟩

/-- The invariant does not speak of the outputs of the last step, of the CRC unit, or of the model's own fields. -/
theorem inv_with_outputs {s : State} (h : Inv s) (c : Half) (r : Option Response) (em tx : List Byte)
    (p : List PortEvent) : Inv { s with crcAcc := c, rsp := r, emitted := em, txout := tx, port := p } :=
  { h with }

/-- Every operation keeps the invariant. -/
theorem inv_exec {i : Instr} {s t : State} (h : Inv s) (hexec : exec i s = .next t) : Inv t := by
  have answered (d : Word) : Inv (answerOk d s) := inv_answer d rfl h
  cases i using instr_cases with
  | nop => cases hexec; exact answered 0
  | reset => cases hexec; exact inv_answer 0 rfl (inv_resetBlock h)
  | csrRd n =>
    obtain ⟨v, rfl⟩ | rfl := execCsrRd_cases hexec
    · exact answered v
    · exact inv_refuse _ h
  | crcClr | crcUpd b => cases hexec; exact inv_with_outputs h _ _ _ _ _
  | encStart len => exact inv_execEncStart h hexec
  | encPush b => exact inv_execEncPush h hexec
  | encAbort => exact inv_execEncAbort h hexec
  | byte i b hb => exact inv_takeByte h (orFault_eq_next.1 (exec_of_givenByte hb s ▸ hexec))
  | decRd idx =>
    obtain ⟨v, rfl⟩ | rfl | rfl := execDecRd_cases hexec
    · exact answered v
    · exact inv_refuse _ h
    · exact inv_refuse _ h
  | decDrop => exact inv_execDecDrop h hexec
  | unpClr => exact inv_execUnpClr h hexec
  | unpPush b => exact inv_execUnpPush h hexec
  | run i m hm => exact inv_runMask h (orFault_eq_next.1 (exec_of_givenMask hm s ▸ hexec))
  | unpRd x =>
    obtain ⟨v, rfl⟩ | rfl | rfl | rfl := execUnpRd_cases hexec
    · exact answered v
    · exact inv_answer 0 rfl h
    · exact inv_refuse _ h
    · exact inv_refuse _ h
  | schRd x =>
    obtain ⟨v, rfl⟩ | rfl := execSchRd_cases hexec
    · exact answered v
    · exact inv_refuse _ h

/-- Every step keeps the invariant, whatever the host presents. -/
theorem inv_step {s t : State} (h : Inv s) (hstep : step s = .next t) : Inv t := by
  obtain ⟨-, rfl⟩ | ⟨e, rest, -, hevent⟩ := step_cases hstep
  · exact h
  · have hs : Inv { s with port := rest } := inv_with_outputs h _ _ _ _ _
    obtain ⟨-, rfl⟩ | ⟨item, -, ⟨err, -, rfl⟩ | ⟨i, -, hexec⟩⟩ := hevent
    · exact inv_with_outputs (inv_resetBlock hs) _ _ _ _ _
    · exact inv_refuse _ hs
    · exact inv_exec hs hexec

/-- Settles O48: the parts of the invariant, one for each unit, that the operations of the unit keep. -/
theorem everyStepKeepsTheInvariant : Obligations.EveryStepKeepsTheInvariant :=
  fun _ _ => inv_step

/-! ### Reset -/

/-- The buffers are empty, the decoder is at a header position, and no record is held. -/
theorem inv_reset {c : Config} (hc : c.ok = true) : Inv { State.reset with cfg := c } := by
  refine inv_iff.2 ⟨hc, by simp [EncCounts, State.reset], ?_, ?_, by simp [LogBitsAssigned, State.reset]⟩
  · exact decInv_of_hdr rfl rfl (by simp [State.reset]) (.inl rfl) (by simp [State.reset]) (by simp [State.reset])
      (by simp [Diagnostics, State.reset]) rfl (by simp [State.reset])
  · exact unpInv_of_noRecord (by simp [State.reset]) rfl rfl rfl rfl (Nat.zero_le _) rfl (by simp [State.reset])

/-- Settles O49. -/
theorem resetSatisfiesTheInvariant : Obligations.ResetSatisfiesTheInvariant :=
  ⟨inv_reset (c := Config.thisHardware) (by decide), fun _ => inv_reset⟩

/-! ### Reachable states -/

/-- The invariant holds at reset and every step keeps it. -/
theorem inv_of_reachable {s : State} (h : Reachable s) : Inv s := by
  induction h with
  | reset c hc => exact inv_reset hc
  | step s t e _ hstep ih => exact inv_step (inv_with_outputs ih _ _ _ _ _) hstep

/-- No operation but `RESET` takes a bit out of the log. -/
theorem errlog_kept_of_exec {i : Instr} {s t : State} (hi : i ≠ .reset) (h : exec i s = .next t) :
    s.errlog &&& t.errlog = s.errlog := by
  obtain ⟨r, -, hlog⟩ := (exec_completes hi h).answers
  rw [hlog]
  exact and_statusLog _ _

/-- A refusal at decoding keeps the log's bits too. -/
theorem errlog_kept_of_runItem {item : HostItem} {s t : State} (hitem : decode (framePos s) item ≠ .ok .reset)
    (h : runItem item s = .next t) : s.errlog &&& t.errlog = s.errlog := by
  unfold runItem at h
  split at h
  · rename_i i hdec
    exact errlog_kept_of_exec (fun hi => hitem (hi ▸ hdec)) h
  · cases h
    exact and_statusLog .illegalOp _

/-- Settles O50: items 1 to 10 by induction on the run, item 11 event by event. -/
theorem reachableStatesSatisfyTheInvariant : Obligations.ReachableStatesSatisfyTheInvariant := by
  refine fun s hs => ⟨inv_of_reachable hs, fun e t hstep hinput hreset => ?_⟩
  rw [step_present] at hstep
  cases e with
  | resetInput => exact absurd rfl hinput
  | item item => exact errlog_kept_of_runItem (hreset item rfl) hstep

/-! ### The log, status by status -/

/-- A command word that is no operation is none at every frame position (R82). -/
theorem step_of_undecodable {w : PortWord} {p : FramePos} {err : DecodeError} (hdec : decode p (.cmd w) = .error err)
    (s : State) : step (present (.item (.cmd w)) s) = .next (refuse .illegalOp s) := by
  have hpos : decode (framePos s) (.cmd w) = .error err := hdec
  rw [step_present, runEvent, runItem, hpos]

/-- Settles O53: the first clause is what completing means, the last the invariant of the reachable states. -/
theorem errlogIsSticky : Obligations.ErrlogIsSticky := by
  refine ⟨fun i s t hi hexec => ?_, fun w s p err hdec => ?_, fun s t hreset => ?_, fun s hs => ?_⟩
  · obtain ⟨r, hr, hlog⟩ := (exec_completes hi hexec).answers
    refine ⟨r, hr, hlog.trans ?_⟩
    unfold statusLog
    cases statusBit r.status <;> rfl
  · exact ⟨_, step_of_undecodable hdec s, rfl⟩
  · obtain hexec | hinput := hreset
    · cases hexec; rfl
    · cases hinput; rfl
  · exact (inv_of_reachable hs).logBitsAssigned

end Sys2Proof.Proofs
end

section
/-! PROOFS. The two buffers (R60 to R62, R69): which instruction stores a byte, and where. -/

namespace Sys2Proof.Proofs

open Sys2Proof Sys2Proof.Machine
open Sys2Proof.Spec (givenByte rxStoredAt)

/-- The check of a complete frame reads `RXBUF` and stores nothing. -/
theorem decCheck_rxbuf {s t : State} (h : decCheck s = some t) : t.rxbuf = s.rxbuf := by
  obtain ⟨-, rfl⟩ := decCheck_eq_some.1 h
  dsimp only
  split_ifs <;> simp

/-- The decoder writes the byte it is given once, where its state says, and not at all when it rejects a header (R165). -/
theorem takeByte_rxbuf {b : Byte} {s t : State} (h : takeByte b s = some t) :
    t.rxbuf = (rxStoredAt b s).elim s.rxbuf fun a => s.rxbuf.write a b := by
  cases hst : s.decState with
  | hdr =>
    rw [takeByte_hdr hst, decHeader_eq, Option.some.injEq] at h
    subst h
    split_ifs with hshort hlong
    · simp [rxStoredAt, hst, hshort]
    · simp [rxStoredAt, hst, hlong]
    · simp [rxStoredAt, hst, hshort, hlong]
  | len =>
    rw [takeByte_len hst, decLen_eq, Option.some.injEq] at h
    subst h
    simp [rxStoredAt, hst]
  | lenh =>
    rw [takeByte_lenh hst, decLenHigh_eq, Option.some.injEq] at h
    subst h
    simp [rxStoredAt, hst]
  | lenl =>
    rw [takeByte_lenl hst, decLenLow_eq, Option.some.injEq] at h
    subst h
    simp [rxStoredAt, hst]
  | acc =>
    rw [takeByte_acc hst] at h
    simp only [rxStoredAt, hst, Option.elim_some]
    obtain ⟨-, ⟨-, rfl⟩ | ⟨-, -, rfl⟩ | ⟨-, -, hcheck⟩⟩ := decAcc_eq_some.1 h
    · rfl
    · rfl
    · exact decCheck_rxbuf hcheck

theorem takeByte_read_stored {a : Nat} {b : Byte} {s t : State} (hwf : s.rxbuf.wf = true) (h : takeByte b s = some t)
    (ha : rxStoredAt b s = some a) : t.rxbuf.read a = b := by
  rw [takeByte_rxbuf h, ha, Option.elim_some, Memory.read_write_same a b hwf]

theorem takeByte_read_other {a : Nat} {b : Byte} {s t : State} (h : takeByte b s = some t)
    (ha : rxStoredAt b s ≠ some a) : t.rxbuf.read a = s.rxbuf.read a := by
  rw [takeByte_rxbuf h]
  cases hat : rxStoredAt b s with
  | none => rfl
  | some k =>
    have hne : a ≠ k := by
      rintro rfl
      exact ha hat
    rw [Option.elim_some, Memory.read_write_other b hne]

/-- `UNP.PUSH` writes `UBUF` at `UBUF_LEN`, or nothing when it is refused; `RXBUF` is not its buffer (R211). -/
theorem execUnpPush_buffers {b : Byte} {s t : State} (h : execUnpPush b s = .next t) :
    t.rxbuf = s.rxbuf
      ∧ (t.ubuf = s.ubuf.write s.ubufLen.toNat b ∨ s.ubufLen.toNat = s.cfg.ubufSize ∧ t.ubuf = s.ubuf) := by
  by_cases hfull : s.ubufLen.toNat = s.cfg.ubufSize
  · rw [execUnpPush, if_pos hfull] at h
    cases h
    exact ⟨rfl, .inr ⟨hfull, rfl⟩⟩
  · rw [execUnpPush, if_neg hfull, orFault_eq_next, Option.map_eq_some_iff] at h
    obtain ⟨m, hm, rfl⟩ := h
    exact ⟨rfl, .inl (writeByte_eq_some.1 hm).2⟩

/-- A run of the unpacker reads `UBUF` and stores nothing (R212). -/
theorem runMask_buffers {mask : Word} {s t : State} (h : runMask mask s = some t) :
    t.rxbuf = s.rxbuf ∧ t.ubuf = s.ubuf := by
  obtain ⟨raw, valid, consumed, -, rfl⟩ | ⟨info, rfl⟩ | ⟨info, rfl⟩ := runMask_cases h <;> exact ⟨rfl, rfl⟩

/-- No instruction but those that give the decoder a byte and `UNP.PUSH` writes a buffer, `RESET` included (R79). -/
theorem exec_buffers_of_stores_nothing {i : Instr} {s t : State} (hbyte : givenByte i = none)
    (hpush : ∀ b, i ≠ .unpPush b) (h : exec i s = .next t) : t.rxbuf = s.rxbuf ∧ t.ubuf = s.ubuf := by
  cases i using instr_cases with
  | nop | reset | crcClr | crcUpd b | encAbort | decDrop | unpClr => cases h; exact ⟨rfl, rfl⟩
  | csrRd n => obtain ⟨v, rfl⟩ | rfl := execCsrRd_cases h <;> exact ⟨rfl, rfl⟩
  | encStart len => obtain ⟨r, rfl⟩ | ⟨-, bytes, rfl⟩ | ⟨-, bytes, rfl⟩ := execEncStart_cases h <;> exact ⟨rfl, rfl⟩
  | encPush b => obtain rfl | ⟨c, bytes, rfl⟩ | ⟨-, -, c, bytes, rfl⟩ := execEncPush_cases h <;> exact ⟨rfl, rfl⟩
  | byte i b hb => simp [hb] at hbyte
  | decRd idx => obtain ⟨v, rfl⟩ | rfl | rfl := execDecRd_cases h <;> exact ⟨rfl, rfl⟩
  | unpPush b => exact absurd rfl (hpush b)
  | run i m hm => exact runMask_buffers (orFault_eq_next.1 (exec_of_givenMask hm s ▸ h))
  | unpRd x => obtain ⟨v, rfl⟩ | rfl | rfl | rfl := execUnpRd_cases h <;> exact ⟨rfl, rfl⟩
  | schRd x => obtain ⟨v, rfl⟩ | rfl := execSchRd_cases h <;> exact ⟨rfl, rfl⟩

/-- Settles O55: what each of the two storing operations writes, read back by the laws of the buffers, and the frame of all
the others. Of the invariant only the canonical form of the buffers is needed. -/
theorem buffersChangeOnlyWhereStored : Obligations.BuffersChangeOnlyWhereStored := by
  intro i s t hinv h
  obtain ⟨hrxWf, hubWf, -⟩ := hinv.buffersCanonical
  refine ⟨fun b hb => ?_, fun b hb => ?_, fun hbyte hpush a => ?_⟩
  · have htake := orFault_eq_next.1 (exec_of_givenByte hb s ▸ h)
    obtain ⟨-, -, -, hub, -⟩ := takeByte_frame htake
    exact ⟨fun a => takeByte_read_stored hrxWf htake, fun a => takeByte_read_other htake, fun a => by rw [hub]⟩
  · subst hb
    obtain ⟨hrx, hub | ⟨hfull, hub⟩⟩ := execUnpPush_buffers h
    · rw [hub, hrx]
      exact ⟨fun _ => Memory.read_write_same _ b hubWf, fun a => Memory.read_write_other b, fun a => rfl⟩
    · rw [hub, hrx]
      exact ⟨fun hroom => absurd hfull hroom.ne, fun a _ => rfl, fun a => rfl⟩
  · obtain ⟨hrx, hub⟩ := exec_buffers_of_stores_nothing hbyte hpush h
    rw [hrx, hub]
    exact ⟨rfl, rfl⟩

end Sys2Proof.Proofs
end

section
/-! PROOFS. The four reads (R71): an answer or a refusal, given a second time, adds nothing to the first. -/

namespace Sys2Proof.Proofs

open Sys2Proof Sys2Proof.Machine

/-! ### Answering twice -/

theorem withLogBit_withLogBit (k : Nat) (log : Word) : withLogBit k (withLogBit k log) = withLogBit k log := by
  simp [withLogBit, BitVec.or_assoc]

theorem answer_answer (st : Status) (d : Word) (s : State) :
    answer st d [] (answer st d [] s) = answer st d [] s := by
  simp [answer]

theorem answerOk_answerOk (d : Word) (s : State) : answerOk d (answerOk d s) = answerOk d s := answer_answer .ok d s

theorem refuse_refuse (r : PortRefusal) (s : State) : refuse r (refuse r s) = refuse r s := by
  simp [refuse, answer, withLogBit_withLogBit]

/-! ### What a read comes to -/

/-- What a read leaves behind: an answer that is no outcome of the log, or one of the two refusals of a read. -/
inductive ReadOutcome (s : State) : State → Prop where
  | answered {st : Status} (hst : st = .ok ∨ st = .absent) (d : Word) : ReadOutcome s (answer st d [] s)
  | refused {r : PortRefusal} (hr : r = .indexRange ∨ r = .noData) : ReadOutcome s (refuse r s)

theorem execCsrRd_outcome {n : Byte} {s t : State} (h : execCsrRd n s = .next t) : ReadOutcome s t := by
  obtain ⟨v, rfl⟩ | rfl := execCsrRd_cases h
  · exact .answered (.inl rfl) v
  · exact .refused (.inl rfl)

theorem execDecRd_outcome {idx : Half} {s t : State} (h : execDecRd idx s = .next t) : ReadOutcome s t := by
  obtain ⟨v, rfl⟩ | rfl | rfl := execDecRd_cases h
  · exact .answered (.inl rfl) v
  · exact .refused (.inr rfl)
  · exact .refused (.inl rfl)

theorem execUnpRd_outcome {x : BitVec 5} {s t : State} (h : execUnpRd x s = .next t) : ReadOutcome s t := by
  obtain ⟨v, rfl⟩ | rfl | rfl | rfl := execUnpRd_cases h
  · exact .answered (.inl rfl) v
  · exact .answered (.inr rfl) 0
  · exact .refused (.inl rfl)
  · exact .refused (.inr rfl)

theorem execSchRd_outcome {x : BitVec 5} {s t : State} (h : execSchRd x s = .next t) : ReadOutcome s t := by
  obtain ⟨v, rfl⟩ | rfl := execSchRd_cases h
  · exact .answered (.inl rfl) v
  · exact .refused (.inl rfl)

/-- A read leaves the block as it was but for the log. -/
theorem ReadOutcome.sameBlock {s t : State} (h : ReadOutcome s t) : SameBlock { s with errlog := t.errlog } t := by
  cases h with
  | answered => simp [SameBlock]
  | refused => simp [SameBlock]

/-- A read logs nothing unless it is refused, and then the bit of the refusal. -/
theorem ReadOutcome.log {s t : State} (h : ReadOutcome s t) :
    ∃ r, t.rsp = some r
      ∧ ((r.status = .ok ∨ r.status = .absent) ∧ t.errlog = s.errlog
          ∨ r.status = .indexRange ∧ t.errlog = s.errlog ||| (1#32 <<< 12)
          ∨ r.status = .noData ∧ t.errlog = s.errlog ||| (1#32 <<< 13)) := by
  cases h with
  | answered hst d => exact ⟨_, rfl, .inl ⟨hst, rfl⟩⟩
  | refused hr =>
    refine ⟨_, rfl, .inr ?_⟩
    obtain rfl | rfl := hr
    · exact .inl ⟨rfl, rfl⟩
    · exact .inr ⟨rfl, rfl⟩

/-! ### Reading twice -/

/-- Which register numbers are unassigned does not depend on the state (R40 to R52). -/
theorem csrRead_eq_none {n : Byte} {s : State} : csrRead n s = none ↔ 0x0B < n.toNat := by
  unfold csrRead
  split <;> simp_all
  omega

theorem execCsrRd_repeats {n : Byte} {s t : State} (h : execCsrRd n s = .next t) : execCsrRd n t = .next t := by
  unfold execCsrRd at h
  split at h
  next v hv =>
    cases h
    have hagain : csrRead n (answerOk v s) = some v := hv
    simp only [execCsrRd, hagain, answerOk_answerOk]
  next hnone =>
    cases h
    have hagain : csrRead n (refuse .indexRange s) = none := csrRead_eq_none.2 (csrRead_eq_none.1 hnone)
    simp only [execCsrRd, hagain, refuse_refuse]

theorem execDecRd_repeats {idx : Half} {s t : State} (h : execDecRd idx s = .next t) : execDecRd idx t = .next t := by
  unfold execDecRd at h
  split_ifs at h with hres hidx
  · cases h
    rw [execDecRd, refuse_decRes, if_pos hres, refuse_refuse]
  · cases h
    rw [execDecRd, refuse_decRes, if_neg hres, refuse_decL, if_pos hidx, refuse_refuse]
  · obtain ⟨b, hb, rfl⟩ := Option.map_eq_some_iff.1 (orFault_eq_next.1 h)
    rw [execDecRd, answerOk_decRes, if_neg hres, answerOk_decL, if_neg hidx, answerOk_cfg, answerOk_rxbuf,
      answerOk_decOff, hb, Option.map_some, orFault_some, answerOk_answerOk]

theorem execUnpRd_repeats {x : BitVec 5} {s t : State} (h : execUnpRd x s = .next t) : execUnpRd x t = .next t := by
  unfold execUnpRd at h ⊢
  split at h
  next =>
    cases h
    rw [refuse_refuse]
  next i _ =>
    split_ifs at h with hres hbit
    · cases h
      simp only [refuse_uRes, if_pos hres, refuse_refuse]
    · cases h
      simp only [answer_uRes, answer_uValid, if_neg hres, if_pos hbit, answer_answer]
    · cases h
      simp only [answerOk_uRes, answerOk_uValid, answerOk_uRaw, if_neg hres, if_neg hbit, answerOk_answerOk]

/-- The schema is the instance's, and no read writes it (R35, R196). -/
theorem execSchRd_repeats {x : BitVec 5} {s t : State} (h : execSchRd x s = .next t) : execSchRd x t = .next t := by
  unfold execSchRd at h ⊢
  split at h
  next =>
    cases h
    rw [refuse_refuse]
  next i _ =>
    cases h
    rw [answerOk_cfg, answerOk_answerOk]

/-- Settles O56: each read comes to an answer or a refusal, and reads no register that its own outcome writes; `CSR.RD` of
`ERRLOG` is never refused. -/
theorem readsChangeNothing : Obligations.ReadsChangeNothing := by
  intro i s t hread h
  have hboth : ReadOutcome s t ∧ exec i t = .next t := by
    obtain ⟨n, rfl⟩ | ⟨idx, rfl⟩ | ⟨x, rfl⟩ | ⟨x, rfl⟩ := hread
    · exact ⟨execCsrRd_outcome h, execCsrRd_repeats h⟩
    · exact ⟨execDecRd_outcome h, execDecRd_repeats h⟩
    · exact ⟨execUnpRd_outcome h, execUnpRd_repeats h⟩
    · exact ⟨execSchRd_outcome h, execSchRd_repeats h⟩
  obtain ⟨hout, hagain⟩ := hboth
  obtain ⟨r, hr, hlog⟩ := hout.log
  exact ⟨r, hr, hout.sameBlock, hlog, hagain⟩

end Sys2Proof.Proofs
end

section
/-! PROOFS. Decoding (R80 to R83, R99, R107): a command word row by row of R81, a received byte and a mask by the table row
that spells it, and what the encoding of each kind of instruction decodes to. -/

namespace Sys2Proof.Proofs

open Sys2Proof Sys2Proof.Machine
open Sys2Proof.Spec (cmdRows logged PortLine givenByte)

/-! ### Command words -/

@[simp] theorem cmdOp_append (op : BitVec 8) (arg : Word) : cmdOp (op ++ arg) = op :=
  BitVec.extractLsb'_append_eq_left

@[simp] theorem cmdArg_append (op : BitVec 8) (arg : Word) : cmdArg (op ++ arg) = arg :=
  BitVec.extractLsb'_append_eq_right

/-- No bit from `k` up is set exactly when the value fits `k` bits. -/
theorem ushiftRight_eq_zero_iff_lt (arg : Word) (k : Nat) : arg >>> k = 0#32 ↔ arg.toNat < 2 ^ k := by
  rw [← BitVec.toNat_inj, BitVec.toNat_ushiftRight, Nat.shiftRight_eq_div_pow, BitVec.toNat_zero,
    Nat.div_eq_zero_iff_lt (Nat.two_pow_pos k)]

/-- A `k`-bit operand, laid out in the 32 bits of the argument, has no bit from `k` up. -/
theorem toNat_setWidth_lt {k : Nat} (x : BitVec k) : (x.setWidth 32).toNat < 2 ^ k := by
  rw [BitVec.toNat_setWidth]
  exact (Nat.mod_le _ _).trans_lt x.isLt

/-- An operand is taken when the argument fits its bits; otherwise a reserved bit is set (R82). -/
theorem withOperand_append {k : Nat} {mk : BitVec k → Instr} {i : Instr} (op : BitVec 8) (arg : Word)
    (hi : mk (arg.setWidth k) = i) :
    withOperand k (op ++ arg) mk = if arg.toNat < 2 ^ k then .ok i else .error (.reservedBits op arg) := by
  simp only [withOperand, cmdOp_append, cmdArg_append, ushiftRight_eq_zero_iff_lt, hi]

/-- Each of the sixteen rows of R81: the operation code chooses the row, and the row's operand bits are judged. -/
theorem decodeCmd_of_row {r : BitVec 8 × Nat × (Word → Instr)} (hr : r ∈ cmdRows) (arg : Word) :
    decodeCmd (r.1 ++ arg) = if arg.toNat < 2 ^ r.2.1 then .ok (r.2.2 arg) else .error (.reservedBits r.1 arg) := by
  simp only [cmdRows, List.mem_cons, List.not_mem_nil, or_false] at hr
  rcases hr with rfl | rfl | rfl | rfl | rfl | rfl | rfl | rfl | rfl | rfl | rfl | rfl | rfl | rfl | rfl | rfl
  all_goals
    rw [decodeCmd, cmdOp_append]
    exact withOperand_append _ arg (by simp)

/-- The operation code is judged first: one without a row is refused whatever its argument (R82, R99). -/
theorem decodeCmd_of_unassigned {op : BitVec 8} (hop : op ∉ cmdRows.map (·.1)) (arg : Word) :
    decodeCmd (op ++ arg) = .error (.unassignedOp op) := by
  simp only [cmdRows, List.map_cons, List.map_nil, List.mem_cons, List.not_mem_nil, or_false, not_or, ← BitVec.toNat_inj,
    BitVec.reduceToNat] at hop
  rw [decodeCmd, cmdOp_append]
  split
  case h_17 => rfl
  all_goals omega

/-- The word is one of a row of R81, its argument fits the row's operand bits, and the row gives it this meaning. -/
def SpelledByRow (w : PortWord) (i : Instr) : Prop :=
  ∃ r ∈ cmdRows, ∃ arg : Word, arg.toNat < 2 ^ r.2.1 ∧ w = r.1 ++ arg ∧ i = r.2.2 arg

theorem decodeCmd_of_spelledByRow {w : PortWord} {i : Instr} (h : SpelledByRow w i) : decodeCmd w = .ok i := by
  obtain ⟨r, hr, arg, hfits, rfl, rfl⟩ := h
  rw [decodeCmd_of_row hr, if_pos hfits]

/-- An operand of the width of row `n`, laid out in 32 bits behind the row's code. -/
theorem spelledByRow_of_operand (n : Fin 16) (x : BitVec (cmdRows[n.val]'n.isLt).2.1) {w : PortWord} {i : Instr}
    (hw : w = (cmdRows[n.val]'n.isLt).1 ++ x.setWidth 32) (hi : i = (cmdRows[n.val]'n.isLt).2.2 (x.setWidth 32)) :
    SpelledByRow w i :=
  ⟨_, List.getElem_mem _, _, toNat_setWidth_lt x, hw, hi⟩

/-- The encoding of an operation is the word of its row with its operand (R81, R105); the rows count from 0. -/
theorem spelledByRow_of_encode {i : Instr} {w : PortWord} (h : encode i = .cmd w) : SpelledByRow w i := by
  cases i <;> cases h
  case nop => exact spelledByRow_of_operand 0 0#0 rfl rfl
  case reset => exact spelledByRow_of_operand 1 0#0 rfl rfl
  case csrRd n => exact spelledByRow_of_operand 2 n rfl (by simp [cmdRows])
  case crcClr => exact spelledByRow_of_operand 3 0#0 rfl rfl
  case crcUpd b => exact spelledByRow_of_operand 4 b rfl (by simp [cmdRows])
  case encStart len => exact spelledByRow_of_operand 5 len rfl (by simp [cmdRows])
  case encPush b => exact spelledByRow_of_operand 6 b rfl (by simp [cmdRows])
  case encAbort => exact spelledByRow_of_operand 7 0#0 rfl rfl
  case decByte b => exact spelledByRow_of_operand 8 b rfl (by simp [cmdRows])
  case decRd idx => exact spelledByRow_of_operand 9 idx rfl (by simp [cmdRows])
  case decDrop => exact spelledByRow_of_operand 10 0#0 rfl rfl
  case unpClr => exact spelledByRow_of_operand 11 0#0 rfl rfl
  case unpPush b => exact spelledByRow_of_operand 12 b rfl (by simp [cmdRows])
  case unpRun mask => exact spelledByRow_of_operand 13 mask (by simp [cmdRows, cmdWord]) (by simp [cmdRows])
  case unpRd slot => exact spelledByRow_of_operand 14 slot rfl (by simp [cmdRows])
  case schRd slot => exact spelledByRow_of_operand 15 slot rfl (by simp [cmdRows])

/-! ### Received bytes and presence masks -/

/-- A FRAME row is spelled by its byte at the position it is encoded for (R88, R89, R93). -/
theorem decodeRx_of_encode {i : Instr} {b : Byte} (h : encode i = .rx b) : decodeRx (encodePos i) b = i := by
  cases i <;> cases h <;> rfl

/-- Whichever row a received byte is spelled by, that row gives the decoder this byte (log 1). -/
theorem givenByte_decodeRx (p : FramePos) (b : Byte) : givenByte (decodeRx p b) = some b := by
  cases p
  case header =>
    dsimp only [decodeRx]
    split_ifs with hshort hlong
    · exact congrArg some hshort.symm
    · exact congrArg some hlong.symm
    · rfl
  case data => rfl
  case terminator =>
    dsimp only [decodeRx]
    split_ifs with hterm
    · exact congrArg some hterm.symm
    · rfl

/-- A mask is spelled by a FIELD row or, when it has none, by `FIELD.RESERVED` (log 3). -/
theorem decodeMask_cases (m : Word) :
    (∃ r ∈ fieldRows, r.1 = m ∧ decodeMask m = r.2) ∨ decodeMask m = .fieldReserved m := by
  unfold decodeMask
  cases hfind : fieldRows.find? fun r => r.1 == m with
  | none => exact .inr rfl
  | some r => exact .inl ⟨r, List.mem_of_find?_eq_some hfind, by simpa using List.find?_some hfind, rfl⟩

/-- Whichever row a mask is spelled by, that row runs the unpacker under this mask (log 1). -/
theorem givenMask_decodeMask (m : Word) : givenMask (decodeMask m) = some m := by
  have hrows : ∀ r ∈ fieldRows, givenMask r.2 = some r.1 := by decide
  obtain ⟨r, hr, rfl, hdec⟩ | hdec := decodeMask_cases m
  · rw [hdec, hrows r hr]
  · rw [hdec]; rfl

/-- A mask that no FIELD row spells is spelled by `FIELD.RESERVED` (log 3). -/
theorem decodeMask_of_not_isFieldMask {m : Word} (h : isFieldMask m = false) : decodeMask m = .fieldReserved m := by
  have hrows : ∀ r ∈ fieldRows, isFieldMask r.1 = true := by decide
  obtain ⟨r, hr, rfl, -⟩ | hdec := decodeMask_cases m
  · simp [hrows r hr] at h
  · exact hdec

/-- A FIELD row is spelled by its mask; `FIELD.RESERVED` is by every mask that makes it well formed. -/
theorem decodeMask_of_encode {i : Instr} {m : Word} (hwf : WellFormed i = true) (h : encode i = .mask m) :
    decodeMask m = i := by
  cases i <;> cases h
  case fieldReserved => exact decodeMask_of_not_isFieldMask (by simpa [WellFormed] using hwf)
  all_goals rfl

/-! ### The round trip -/

/-- Settles O1: by the format of the encoding, each format being decoded on its own. -/
theorem decodeOfEncodeIsTheInstruction : Obligations.DecodeOfEncodeIsTheInstruction := by
  intro i hwf
  cases henc : encode i with
  | cmd w => exact decodeCmd_of_spelledByRow (spelledByRow_of_encode henc)
  | rx b => exact congrArg Except.ok (decodeRx_of_encode henc)
  | mask m => exact congrArg Except.ok (decodeMask_of_encode hwf henc)

/-- A table word that is an instruction's encoding decodes to that instruction (log 20). -/
theorem decodeTableWord_of_encode {nbits w : Nat} {i : Instr} (hwf : WellFormed i = true) (hpos : encodePos i = .header)
    (henc : tableItem nbits w = encode i) : decodeTableWord nbits w = some i := by
  rw [decodeTableWord, henc, ← hpos, decodeOfEncodeIsTheInstruction i hwf]
  rfl

/-- Settles O5: each word is the encoding of its instruction, laid out by R81 and R107; the refused one is a word of row
`CRC.UPD` whose argument does not fit a byte. -/
theorem writtenOutWordsDecode : Obligations.WrittenOutWordsDecode := by
  refine ⟨?_, ?_, ?_, ?_, ?_, ?_, ?_, ?reserved, ?_, ?_⟩
  case reserved => decide
  all_goals exact decodeTableWord_of_encode rfl rfl rfl

/-! ### What presenting an item does -/

theorem runItem_of_decode_error {item : HostItem} {s : State} {err : DecodeError}
    (hdec : decode (framePos s) item = .error err) : runItem item s = .next (refuse .illegalOp s) := by
  unfold runItem
  rw [hdec]

/-- The refusal of an undecodable word is the one bit of R31 and the response, and nothing else (R82, R258). -/
theorem refuse_illegalOp_eq (s : State) : refuse .illegalOp s = logged .illegalOp 8 0 s := by
  simp [refuse, answer, logged, withLogBit, PortRefusal.status, PortRefusal.logBit]

theorem portLine_of_row {r : BitVec 8 × Nat × (Word → Instr)} (hr : r ∈ cmdRows) : PortLine r.1 r.2.1 r.2.2 := by
  intro arg s
  have hdec := decodeCmd_of_row hr arg
  rw [step_present]
  split_ifs at hdec ⊢ with hfits
  · exact runItem_of_decode_ok hdec
  · rw [← refuse_illegalOp_eq]
    exact runItem_of_decode_error hdec

/-- Settles O3: the sixteen rows and the codes without one, by what each decodes to. -/
theorem commandWordsAreDecodedInOrder : Obligations.CommandWordsAreDecodedInOrder := by
  refine ⟨fun r hr => portLine_of_row hr, fun op arg s hop => ?_, by decide, rfl⟩
  rw [step_present, ← refuse_illegalOp_eq]
  exact runItem_of_decode_error (decodeCmd_of_unassigned hop arg)

/-- Settles O6: the row an item is spelled by carries the item's own byte or mask, and has the outcome of the operation that
carries it. -/
theorem receivedBytesAndMasksRunTheirOperation : Obligations.ReceivedBytesAndMasksRunTheirOperation := by
  constructor
  · intro b s
    have hdec : decode (framePos s) (.rx b) = .ok (decodeRx (framePos s) b) := rfl
    calc step (Machine.present (.item (.rx b)) s)
      _ = exec (decodeRx (framePos s) b) s := runItem_of_decode_ok hdec
      _ = orFault (takeByte b s) := exec_of_givenByte (givenByte_decodeRx _ b) s
      _ = exec (.decByte b) s := rfl
  · intro m s
    have hdec : decode (framePos s) (.mask m) = .ok (decodeMask m) := rfl
    calc step (Machine.present (.item (.mask m)) s)
      _ = exec (decodeMask m) s := runItem_of_decode_ok hdec
      _ = orFault (runMask m s) := exec_of_givenMask (givenMask_decodeMask m) s
      _ = exec (.unpRun m) s := rfl

end Sys2Proof.Proofs
end

section
/-! PROOFS. What an operation emits (R86): the two encoder operations hand over a header, one byte, or the tail of a frame;
every other operation is silent. -/

namespace Sys2Proof.Proofs

open Sys2Proof Sys2Proof.Machine
open Sys2Proof.Spec (givenByte)

/-! ### Silent operations -/

/-- From `s` to `t` nothing was emitted: no byte handed over, the TX history as it was. -/
structure Silent (s t : State) : Prop where
  emitted : t.emitted = []
  txout : t.txout = s.txout

theorem silent_answer {s u : State} (st : Status) (d : Word) (hu : u.txout = s.txout) : Silent s (answer st d [] u) :=
  ⟨rfl, by simp [hu]⟩

theorem silent_answerOk {s u : State} (d : Word) (hu : u.txout = s.txout) : Silent s (answerOk d u) :=
  silent_answer .ok d hu

theorem silent_refuse (r : PortRefusal) (s : State) : Silent s (refuse r s) := ⟨rfl, by simp⟩

theorem silent_raise {s u : State} (e : ProtoError) (info : Word) (hu : u.txout = s.txout) : Silent s (raise e info u) :=
  ⟨by simp, by simp [hu]⟩

theorem silent_answerPending {s u : State} (n : Nat) (hu : u.txout = s.txout) : Silent s (answerPending n u) :=
  ⟨rfl, by simp [hu]⟩

theorem decCheck_silent {s t : State} (h : decCheck s = some t) : Silent s t := by
  obtain ⟨-, rfl⟩ := decCheck_eq_some.1 h
  dsimp only
  split_ifs
  · exact silent_answer _ _ rfl
  · exact silent_raise _ _ rfl

/-- The decoder emits nothing, in any of its states. -/
theorem takeByte_silent {b : Byte} {s t : State} (h : takeByte b s = some t) : Silent s t := by
  cases hst : s.decState with
  | hdr =>
    rw [takeByte_hdr hst, decHeader_eq, Option.some.injEq] at h
    subst h
    split_ifs
    · exact silent_answerPending _ rfl
    · exact silent_answerPending _ rfl
    · exact silent_raise _ _ rfl
  | len =>
    rw [takeByte_len hst, decLen_eq, Option.some.injEq] at h
    exact h ▸ silent_answerPending _ rfl
  | lenh =>
    rw [takeByte_lenh hst, decLenHigh_eq, Option.some.injEq] at h
    exact h ▸ silent_answerPending _ rfl
  | lenl =>
    rw [takeByte_lenl hst, decLenLow_eq, Option.some.injEq] at h
    exact h ▸ silent_answerPending _ rfl
  | acc =>
    rw [takeByte_acc hst] at h
    obtain ⟨-, ⟨-, rfl⟩ | ⟨-, -, rfl⟩ | ⟨-, -, hcheck⟩⟩ := decAcc_eq_some.1 h
    · exact silent_answerPending _ rfl
    · exact silent_raise _ _ rfl
    · obtain ⟨hemitted, htxout⟩ := decCheck_silent hcheck
      exact ⟨hemitted, htxout⟩

/-- The unpacker emits nothing, whatever its run comes to. -/
theorem runMask_silent {mask : Word} {s t : State} (h : runMask mask s = some t) : Silent s t := by
  obtain ⟨raw, valid, consumed, -, rfl⟩ | ⟨info, rfl⟩ | ⟨info, rfl⟩ := runMask_cases h
  · exact silent_answerOk _ rfl
  · exact silent_raise _ _ rfl
  · exact silent_raise _ _ rfl

/-- `ENC.START` and `ENC.PUSH`, the operations that put bytes on the TX stream (R86, R143, R144). -/
abbrev emits (i : Instr) : Prop := (∃ len, i = .encStart len) ∨ ∃ b, i = .encPush b

/-- Every other operation is silent, `RESET` included: what is emitted is not recalled (R33). -/
theorem exec_silent {i : Instr} {s t : State} (hi : ¬emits i) (h : exec i s = .next t) : Silent s t := by
  cases i using instr_cases with
  | nop | reset | crcClr | crcUpd b | encAbort | decDrop | unpClr => cases h; exact silent_answerOk _ rfl
  | csrRd n =>
    obtain ⟨v, rfl⟩ | rfl := execCsrRd_cases h
    · exact silent_answerOk v rfl
    · exact silent_refuse _ s
  | encStart len => exact absurd (.inl ⟨len, rfl⟩) hi
  | encPush b => exact absurd (.inr ⟨b, rfl⟩) hi
  | byte i b hb => exact takeByte_silent (orFault_eq_next.1 (exec_of_givenByte hb s ▸ h))
  | decRd idx =>
    obtain ⟨v, rfl⟩ | rfl | rfl := execDecRd_cases h
    · exact silent_answerOk v rfl
    · exact silent_refuse _ s
    · exact silent_refuse _ s
  | unpPush b =>
    obtain rfl | ⟨-, d, rfl⟩ := execUnpPush_cases h
    · exact silent_refuse _ s
    · exact silent_answerOk d rfl
  | run i m hm => exact runMask_silent (orFault_eq_next.1 (exec_of_givenMask hm s ▸ h))
  | unpRd x =>
    obtain ⟨v, rfl⟩ | rfl | rfl | rfl := execUnpRd_cases h
    · exact silent_answerOk v rfl
    · exact silent_answer _ _ rfl
    · exact silent_refuse _ s
    · exact silent_refuse _ s
  | schRd x =>
    obtain ⟨v, rfl⟩ | rfl := execSchRd_cases h
    · exact silent_answerOk v rfl
    · exact silent_refuse _ s

/-! ### The encoder's two -/

@[simp] theorem length_frameTail (c : Half) : (frameTail c).length = 3 := rfl

/-- A header is followed by one length byte in the short form and by two in the long form (R88, R89). -/
theorem length_frameHead (len : Half) : (frameHead len).length = 2 ∨ (frameHead len).length = 3 := by
  unfold frameHead
  split_ifs
  · exact .inl rfl
  · exact .inr rfl

/-- What `ENC.START` and `ENC.PUSH` come to on the TX side: refused, or some bytes appended and handed over. -/
inductive Emission (s : State) : State → Prop where
  | refused (r : PortRefusal) : Emission s (refuse r s)
  | emitted {u : State} {bytes : List Byte} (hu : u.txout = s.txout) (hlen : bytes.length ∈ [2, 3, 5, 1, 4]) :
      Emission s (answerEmit bytes u)

/-- The header of a frame, or the whole of the empty frame, 2 or 3 and 5 bytes (R143). -/
theorem execEncStart_emission {len : Half} {s t : State} (h : execEncStart len s = .next t) : Emission s t := by
  unfold execEncStart at h
  split_ifs at h with hbusy hlen hzero <;> cases h
  · exact .refused _
  · exact .refused _
  · subst hzero
    exact .emitted rfl (by decide)
  · refine .emitted rfl ?_
    obtain htwo | hthree := length_frameHead len
    · simp [htwo]
    · simp [hthree]

/-- One payload byte, and with the last one the checksum and the terminator, 1 or 4 bytes (R144). -/
theorem execEncPush_emission {b : Byte} {s t : State} (h : execEncPush b s = .next t) : Emission s t := by
  unfold execEncPush at h
  split_ifs at h with hidle hlast <;> cases h
  · exact .refused _
  · exact .emitted rfl (by simp)
  · exact .emitted rfl (by simp)

theorem exec_emission {i : Instr} {s t : State} (hi : emits i) (h : exec i s = .next t) : Emission s t := by
  obtain ⟨len, rfl⟩ | ⟨b, rfl⟩ := hi
  · exact execEncStart_emission h
  · exact execEncPush_emission h

theorem portRefusal_status_ne_ok (r : PortRefusal) : r.status ≠ .ok := by cases r <;> decide

/-- Settles O54: an operation that is not the encoder's is silent; the encoder's two emit exactly when they are
not refused. -/
theorem emittedBytesAreAppended : Obligations.EmittedBytesAreAppended := by
  intro i s t h
  by_cases hi : emits i
  · obtain r | ⟨htx, hlen⟩ := exec_emission hi h
    · refine ⟨by simp, fun _ => hi, fun r' hr' => ?_⟩
      cases hr'
      exact ⟨fun _ => rfl, fun _ hok => absurd hok (portRefusal_status_ne_ok r)⟩
    · refine ⟨by simp [htx], fun _ => hi, fun r hr => ?_⟩
      cases hr
      exact ⟨fun hno => absurd rfl hno, fun _ _ => ⟨rfl, hlen⟩⟩
  · obtain ⟨hemitted, htxout⟩ := exec_silent hi h
    refine ⟨by simp [hemitted, htxout], fun hno => absurd hemitted hno, fun r _ => ?_⟩
    exact ⟨fun _ => hemitted, fun hyes => absurd hyes hi⟩

end Sys2Proof.Proofs
end

section
/-! PROOFS. The row `FIELD.RESERVED` (R98, R208, R209): which masks have a reserved bit, and that a legal one with enough
bytes buffered is unpacked. -/

namespace Sys2Proof.Proofs

open Sys2Proof Sys2Proof.Machine
open Sys2Proof.Spec (answered logged noRecord withRecord)

/-! ### The reserved bits of a mask (R98) -/

theorem toNat_maskReserved (m : Word) : (maskReserved m).toNat = m.toNat / 2 ^ 23 := by
  rw [maskReserved, BitVec.extractLsb'_toNat, Nat.shiftRight_eq_div_pow]
  exact Nat.mod_eq_of_lt (by omega)

/-- A mask is legal exactly when it lies below the first reserved bit. -/
theorem maskReserved_eq_zero_iff (m : Word) : maskReserved m = 0#9 ↔ m.toNat < 2 ^ 23 := by
  rw [← BitVec.toNat_inj, toNat_maskReserved, BitVec.toNat_zero, Nat.div_eq_zero_iff_lt (by decide)]

/-- The detail of `SchemaExhausted` is the mask without its slots (R209). -/
theorem setWidth_maskReserved (m : Word) : (maskReserved m).setWidth 32 = m >>> 23 := by
  apply BitVec.eq_of_toNat_eq
  rw [BitVec.toNat_setWidth, toNat_maskReserved, BitVec.toNat_ushiftRight, Nat.shiftRight_eq_div_pow]
  exact Nat.mod_eq_of_lt (by omega)

theorem maskSlots_eq_setWidth (m : Word) : maskSlots m = m.setWidth 23 :=
  (BitVec.setWidth_eq_extractLsb' (by decide)).symm

/-! ### A run that succeeds -/

/-- With the bytes of the selected slots left, the walk ends at none of them (R202). -/
theorem exists_walkSlots_eq_ok {payload : List Byte} {mask : Word} {is : List Slot} {w : Walk}
    (h : w.off + bytesOf mask is ≤ payload.length) : ∃ w', walkSlots payload mask is w = .ok w' := by
  induction is generalizing w with
  | nil => exact ⟨w, rfl⟩
  | cons i is ih =>
    cases hbit : hasBit mask i with
    | false =>
      have hrest : bytesOf mask (i :: is) = bytesOf mask is := by simp [bytesOf, hbit]
      obtain ⟨w', hw'⟩ := ih (w := w) (by omega)
      exact ⟨w', walkSlots_cons_eq_ok.2 ⟨w, walkSlot_eq_ok.2 (.inl ⟨hbit, rfl⟩), hw'⟩⟩
    | true =>
      have hrest : bytesOf mask (i :: is) = width i + bytesOf mask is := by simp [bytesOf, hbit]
      have hroom : width i ≤ payload.length - w.off := by omega
      obtain ⟨u, hturn, hoff⟩ : ∃ u, walkSlot payload mask i w = .ok u ∧ u.off = w.off + width i :=
        ⟨_, walkSlot_eq_ok.2 (.inr ⟨hbit, hroom, rfl⟩), rfl⟩
      obtain ⟨w', hw'⟩ := ih (w := u) (by omega)
      exact ⟨w', walkSlots_cons_eq_ok.2 ⟨u, hturn, hw'⟩⟩

/-- Unpacking under a legal mask with enough bytes gives a record of exactly its slots (R202, R208). -/
theorem exists_unpack_eq_record {payload : List Byte} {mask : Word} (hmask : maskReserved mask = 0)
    (hlen : need mask ≤ payload.length) : ∃ raw, unpack payload mask = .record raw (maskSlots mask) (need mask) := by
  obtain ⟨w, hw⟩ := exists_walkSlots_eq_ok (payload := payload) (mask := mask) (is := allSlots) (w := walkStart)
    (by rw [← need_eq_bytesOf]; exact (Nat.zero_add _).trans_le hlen)
  have hrec : unpack payload mask = .record w.raw w.valid w.off := by simp [unpack, hmask, hw]
  obtain ⟨-, hvalid, hoff, -⟩ := unpack_record hrec
  exact ⟨w.raw, by rw [hrec, hvalid, hoff]⟩

/-! ### The two outcomes of the row, spelled field by field -/

theorem raise_schemaExhausted_eq (info m : Word) (s : State) :
    raise .schemaExhausted info { s with uMask := m }
      = logged .schemaExhausted 4 info (noRecord m .schemaExhausted s) := by
  simp [raise, enterError, clearRecord, answer, logged, noRecord, withLogBit, ProtoError.status, ProtoError.logBit]

theorem holdRecord_eq (raw : Vector Word 23) (valid : BitVec 23) (consumed : Nat) (m : Word) (s : State) :
    holdRecord raw valid consumed { s with uMask := m }
      = answered .ok (BitVec.ofNat 32 consumed) (withRecord m raw valid consumed s) := by
  simp [holdRecord, answerOk, answer, answered, withRecord, dataOf]

theorem runMask_of_reserved {m : Word} (s : State) (h : 2 ^ 23 ≤ m.toNat) :
    runMask m s = some (logged .schemaExhausted 4 (m >>> 23) (noRecord m .schemaExhausted s)) := by
  have hres : maskReserved m ≠ 0#9 := by rw [Ne, maskReserved_eq_zero_iff]; omega
  rw [← raise_schemaExhausted_eq, ← setWidth_maskReserved]
  exact runMask_eq_some.2 (.inl ⟨hres, rfl⟩)

theorem exists_runMask_of_legal {m : Word} {s : State} (h : m.toNat < 2 ^ 23) (hsize : s.ubufLen.toNat ≤ s.cfg.ubufSize)
    (hneed : need m ≤ s.ubufLen.toNat) :
    ∃ raw, runMask m s
      = some (answered .ok (BitVec.ofNat 32 (need m)) (withRecord m raw (m.setWidth 23) (need m) s)) := by
  have hlen : need m ≤ (ubufBytes s).length := by rwa [ubufBytes, Memory.length_slice]
  obtain ⟨raw, hrec⟩ := exists_unpack_eq_record ((maskReserved_eq_zero_iff m).2 h) hlen
  refine ⟨raw, ?_⟩
  rw [runMask_eq hsize, hrec, ← holdRecord_eq, ← maskSlots_eq_setWidth]
  rfl

/-- Settles O41: the row is a run of the unpacker under its mask. -/
theorem fieldReservedRowJudgesTheMask : Obligations.FieldReservedRowJudgesTheMask := by
  refine ⟨fun m s hres => congrArg orFault (runMask_of_reserved s hres), fun m s hlegal hsize hneed => ?_⟩
  obtain ⟨raw, hrun⟩ := exists_runMask_of_legal hlegal hsize hneed
  exact ⟨raw, congrArg orFault hrun⟩

end Sys2Proof.Proofs
end

section
/-! PROOFS. The FRAME rows (R88, R89, R93): what their byte does at a header position and, with equal checksums, at the
terminator position. -/

namespace Sys2Proof.Proofs

open Sys2Proof Sys2Proof.Machine
open Sys2Proof.Spec (answered logged freshAttempt)

/-! ### At a header position -/

theorem answerPending_eq (n : Nat) (s : State) :
    answerPending n s = answered .pending (BitVec.ofNat 32 n) { s with decCnt := BitVec.ofNat 17 n } := by
  simp [answerPending, answer, answered, dataOf]

theorem raise_unsupportedHeader_eq (info : Word) (s : State) :
    raise .unsupportedHeader info s
      = logged .unsupportedHeader 0 info { s with decState := .hdr, decCnt := 0, decRes := .unsupportedHeader } := by
  simp [raise, enterError, answer, logged, withLogBit, ProtoError.status, ProtoError.logBit]

theorem takeByte_hdrShort {s : State} (hst : s.decState = .hdr) :
    takeByte 0x02#8 s = some (answered .pending 1
      { freshAttempt s with rxbuf := s.rxbuf.write 0 0x02, decOff := 2, decCnt := 1, decState := .len }) := by
  rw [takeByte_hdr hst, decHeader_eq, if_pos rfl, answerPending_eq]
  rfl

theorem takeByte_hdrLong {s : State} (hst : s.decState = .hdr) (hlong : s.cfg.longDecode = true) :
    takeByte 0x03#8 s = some (answered .pending 1
      { freshAttempt s with rxbuf := s.rxbuf.write 0 0x03, decOff := 3, decCnt := 1, decState := .lenh }) := by
  rw [takeByte_hdr hst, decHeader_eq, if_neg (by decide), if_pos ⟨rfl, hlong⟩, answerPending_eq]
  rfl

/-- Without `LONG_DECODE` the long header is rejected like any other byte; the decoder stays in HDR (R252). -/
theorem takeByte_hdrLong_unsupported {s : State} (hst : s.decState = .hdr) (hlong : s.cfg.longDecode = false) :
    takeByte 0x03#8 s = some (logged .unsupportedHeader 0 3
      { freshAttempt s with decRes := .unsupportedHeader, decCnt := 0 }) := by
  rw [takeByte_hdr hst, decHeader_eq, if_neg (by decide), if_neg (by simp [hlong]), raise_unsupportedHeader_eq]
  simp [newAttempt, freshAttempt, logged, hst, zext8]

/-! ### At the terminator position -/

theorem toNat_be16 (b0 b1 : Byte) : (be16 b0 b1).toNat = b0.toNat * 256 + b1.toNat := by
  rw [be16, BitVec.toNat_append, ← Nat.shiftLeft_add_eq_or_of_lt b1.isLt, Nat.shiftLeft_eq]

/-- The check of a frame whose checksums are equal (R165, steps 4 and 5 of R160). -/
theorem decCheck_of_crc_eq {s : State} {recv : Half} (hsize : s.decOff.toNat + s.decL.toNat + 1 < s.cfg.rxbufSize)
    (hrecv : be16 (s.rxbuf.read (s.decOff.toNat + s.decL.toNat)) (s.rxbuf.read (s.decOff.toNat + s.decL.toNat + 1)) = recv)
    (hcrc : crc16 (s.rxbuf.slice s.decOff.toNat s.decL.toNat) = recv) :
    decCheck s = some (answered .frameOk (s.decL.setWidth 32)
      { s with decCnt := 0, decState := .hdr, decRes := .ok, decCrcCalc := recv, decCrcRecv := recv }) := by
  refine decCheck_eq_some.2 ⟨hsize, ?_⟩
  simp [hrecv, hcrc, answer, answered, zext16]

/-- The terminator is stored behind the payload and the checksum, which the check then reads as they were. -/
theorem takeByte_term {s : State} {recv : Half} (hst : s.decState = .acc) (hsize : frameTotal s ≤ s.cfg.rxbufSize)
    (hcnt : s.decCnt.toNat + 1 = frameTotal s)
    (hrecv : be16 (s.rxbuf.read (s.decOff.toNat + s.decL.toNat)) (s.rxbuf.read (s.decOff.toNat + s.decL.toNat + 1)) = recv)
    (hcrc : crc16 (s.rxbuf.slice s.decOff.toNat s.decL.toNat) = recv) :
    takeByte 0x03#8 s = some (answered .frameOk (s.decL.setWidth 32)
      { s with rxbuf := s.rxbuf.write s.decCnt.toNat 0x03, decCnt := 0, decState := .hdr, decRes := .ok,
               decCrcCalc := recv, decCrcRecv := recv }) := by
  have hbehind : s.decCnt.toNat = s.decOff.toNat + s.decL.toNat + 2 := by rw [frameTotal] at hcnt; omega
  rw [takeByte_acc hst, decAcc_eq_some]
  refine ⟨by omega, .inr (.inr ⟨hcnt.ge, rfl, ?_⟩)⟩
  refine decCheck_of_crc_eq (by dsimp only; omega) ?_ ?_
  · dsimp only
    rw [Memory.read_write_other _ (by omega), Memory.read_write_other _ (by omega), hrecv]
  · dsimp only
    rw [Memory.slice_write_outside _ (.inr (by omega)), hcrc]

/-- Settles O28: each row gives its byte to the decoder. -/
theorem frameRowsDelimitFrames : Obligations.FrameRowsDelimitFrames := by
  refine ⟨fun s hst => ?_, fun s hst hlong => ?_, fun s hst hlong => ?_, fun s hst hsize hcnt recv hrecv hcrc => ?_⟩
  · exact congrArg orFault (takeByte_hdrShort hst)
  · exact congrArg orFault (takeByte_hdrLong hst hlong)
  · exact congrArg orFault (takeByte_hdrLong_unsupported hst hlong)
  · have hread := BitVec.eq_of_toNat_eq ((toNat_be16 _ _).trans hrecv.symm)
    exact congrArg orFault (takeByte_term hst hsize hcnt hread hcrc)

end Sys2Proof.Proofs
end

section
/-! PROOFS. The response word (R84, R85, R257): the numeric status code above the data. -/

namespace Sys2Proof.Proofs

open Sys2Proof Sys2Proof.Machine
open Sys2Proof.Spec (statusNumber)

theorem toNat_status_code (st : Status) : st.code.toNat = statusNumber st := by cases st <;> rfl

theorem toNat_response_word (r : Response) : r.word.toNat = statusNumber r.status * 2 ^ 32 + r.data.toNat := by
  rw [Response.word, BitVec.toNat_append, ← Nat.shiftLeft_add_eq_or_of_lt r.data.isLt, Nat.shiftLeft_eq,
    toNat_status_code]

/-- Settles O60: the word is laid out as R84 says, and each class of R257 holds the statuses with its codes. -/
theorem responseWordIsStatusThenData : Obligations.ResponseWordIsStatusThenData := by
  refine ⟨fun st d => toNat_response_word ⟨st, d⟩, fun st => ?_⟩
  cases st <;> decide

end Sys2Proof.Proofs
end

section
/-! PROOFS. The checksum as a map over GF(2) (R121 to R123, R127): a bit step is additive for xor and one-to-one, and so are
the byte step and the checksum of a sequence; the algebra of R123 follows. -/

namespace Sys2Proof.Proofs

open Sys2Proof Sys2Proof.Machine

/-! ### The bit step -/

/-- The bit step as a shift and a correction: the constant enters when the bit shifted out was 1 (R121). -/
theorem crcBit_eq (r : Half) : crcBit r = r <<< 1 ^^^ (if r.getLsbD 15 then Config.crcPoly else 0#16) := by
  unfold crcBit
  split_ifs
  · rfl
  · exact BitVec.xor_zero.symm

theorem crcBit_xor (r q : Half) : crcBit (r ^^^ q) = crcBit r ^^^ crcBit q := by
  have hpoly : (if r.getLsbD 15 ^^ q.getLsbD 15 then Config.crcPoly else 0#16)
      = (if r.getLsbD 15 then Config.crcPoly else 0#16) ^^^ (if q.getLsbD 15 then Config.crcPoly else 0#16) := by
    cases r.getLsbD 15 <;> cases q.getLsbD 15 <;> rfl
  rw [crcBit_eq, crcBit_eq, crcBit_eq, BitVec.shiftLeft_xor_distrib, BitVec.getLsbD_xor, hpoly]
  ac_rfl

theorem crcBit_of_lt {r : Half} (h : 2 * r.toNat < 2 ^ 16) : crcBit r = r <<< 1 :=
  if_neg (Bool.eq_false_iff.1 (BitVec.msb_eq_false_iff_two_mul_lt.2 h))

/-- No value but 0 goes to 0: the constant is odd, so a bit shifted out leaves a 1 at the bottom. -/
theorem eq_zero_of_crcBit_eq_zero {r : Half} (h : crcBit r = 0#16) : r = 0#16 := by
  cases htop : r.getLsbD 15 with
  | true =>
    have hodd : (crcBit r).getLsbD 0 = true := by
      rw [crcBit_eq, if_pos htop, BitVec.getLsbD_xor, BitVec.getLsbD_shiftLeft]
      rfl
    simp [h] at hodd
  | false =>
    have hlt : 2 * r.toNat < 2 ^ 16 := BitVec.msb_eq_false_iff_two_mul_lt.1 htop
    rw [crcBit_of_lt hlt] at h
    bv_omega

/-! ### Several bit steps -/

theorem crcBits_eq_iterate (n : Nat) (r : Half) : crcBits n r = crcBit^[n] r := by
  induction n generalizing r with
  | zero => rfl
  | succ n ih => exact ih (crcBit r)

theorem crcBits_add (m n : Nat) (r : Half) : crcBits (m + n) r = crcBits n (crcBits m r) := by
  rw [Nat.add_comm, crcBits_eq_iterate, crcBits_eq_iterate, crcBits_eq_iterate, Function.iterate_add_apply]

theorem crcBits_xor (n : Nat) (r q : Half) : crcBits n (r ^^^ q) = crcBits n r ^^^ crcBits n q := by
  induction n generalizing r q with
  | zero => rfl
  | succ n ih => rw [crcBits, crcBit_xor, ih]; rfl

theorem eq_zero_of_crcBits_eq_zero {n : Nat} {r : Half} (h : crcBits n r = 0#16) : r = 0#16 := by
  induction n generalizing r with
  | zero => exact h
  | succ n ih => exact eq_zero_of_crcBit_eq_zero (ih h)

theorem crcBits_injective (n : Nat) : Function.Injective (crcBits n) := by
  intro r q h
  have hxor : crcBits n (r ^^^ q) = 0#16 := by rw [crcBits_xor, h, BitVec.xor_self]
  exact BitVec.xor_eq_zero_iff.1 (eq_zero_of_crcBits_eq_zero hxor)

theorem crcBits_bijective (n : Nat) : Function.Bijective (crcBits n) :=
  Finite.injective_iff_bijective.1 (crcBits_injective n)

/-- As long as no 1 leaves the top, the bit steps only shift. -/
theorem crcBits_of_lt {n : Nat} {r : Half} (h : r.toNat * 2 ^ n < 2 ^ 16) : crcBits n r = r <<< n := by
  induction n generalizing r with
  | zero => exact (BitVec.shiftLeft_zero r).symm
  | succ n ih =>
    rw [Nat.pow_succ', ← Nat.mul_assoc] at h
    have hdouble : r.toNat * 2 < 2 ^ 16 := (Nat.le_mul_of_pos_right _ (Nat.two_pow_pos n)).trans_lt h
    have hshift : (r <<< 1).toNat = r.toNat * 2 := by bv_omega
    rw [crcBits, crcBit_of_lt (by omega), ih (by rwa [hshift]), ← BitVec.shiftLeft_add, Nat.add_comm]

theorem crcBits_eight_setWidth (b : Byte) : crcBits 8 (b.setWidth 16) = b.setWidth 16 <<< 8 := by
  refine crcBits_of_lt ?_
  rw [BitVec.toNat_setWidth]
  omega

/-! ### The byte step -/

/-- Two bytes laid side by side, the first in the upper half. -/
theorem append_eq_xor (a b : Byte) : (a ++ b : Half) = a.setWidth 16 <<< 8 ^^^ b.setWidth 16 := by
  refine BitVec.eq_of_getLsbD_eq fun i hi => ?_
  rw [BitVec.getLsbD_append]
  by_cases hlow : i < 8
  · simp [hlow, hi]
  · simp [hlow, hi, BitVec.getLsbD_of_ge b i (Nat.le_of_not_lt hlow)]

/-- A register is its two bytes, high byte first. -/
theorem bytes_append (c : Half) : ((c >>> 8).setWidth 8 ++ c.setWidth 8 : Half) = c := by
  refine BitVec.eq_of_toNat_eq ((toNat_be16 _ _).trans ?_)
  rw [BitVec.toNat_setWidth, BitVec.toNat_setWidth, BitVec.toNat_ushiftRight, Nat.shiftRight_eq_div_pow]
  omega

theorem setWidth_append_ushiftRight (a b : Byte) : ((a ++ b : Half) >>> 8).setWidth 8 = a := by
  have happ : (a ++ b : Half).toNat = a.toNat * 256 + b.toNat := toNat_be16 a b
  refine BitVec.eq_of_toNat_eq ?_
  rw [BitVec.toNat_setWidth, BitVec.toNat_ushiftRight, happ, Nat.shiftRight_eq_div_pow]
  omega

theorem setWidth_append (a b : Byte) : (a ++ b : Half).setWidth 8 = b := BitVec.setWidth_append_eq_right

theorem append_bijective : Function.Bijective fun p : Byte × Byte => (p.1 ++ p.2 : Half) :=
  Function.bijective_iff_has_inverse.2 ⟨fun c => ((c >>> 8).setWidth 8, c.setWidth 8),
    fun p => Prod.ext (setWidth_append_ushiftRight p.1 p.2) (setWidth_append p.1 p.2), bytes_append⟩

/-- The byte step, with the byte as the shifted value of R121. -/
theorem crcUpdate_eq (c : Half) (b : Byte) : crcUpdate c b = crcBits 8 (c ^^^ b.setWidth 16 <<< 8) := by
  rw [crcUpdate, append_eq_xor, BitVec.setWidth_zero, BitVec.xor_zero]

theorem crcUpdate_xor (c d : Half) (a b : Byte) :
    crcUpdate (c ^^^ d) (a ^^^ b) = crcUpdate c a ^^^ crcUpdate d b := by
  rw [crcUpdate_eq, crcUpdate_eq, crcUpdate_eq, ← crcBits_xor, BitVec.setWidth_xor, BitVec.shiftLeft_xor_distrib]
  ac_rfl

theorem crcUpdate_zero_zero : crcUpdate 0#16 0#8 = 0#16 := by decide

theorem crcUpdate_injective_left (b : Byte) : Function.Injective fun c => crcUpdate c b := by
  intro c d h
  simp only [crcUpdate_eq] at h
  exact (BitVec.xor_left_inj _).1 (crcBits_injective 8 h)

theorem crcUpdate_injective_right (c : Half) : Function.Injective (crcUpdate c) := by
  intro a b h
  have hbits : a ++ 0#8 = b ++ 0#8 := (BitVec.xor_right_inj c).1 (crcBits_injective 8 h)
  exact (BitVec.append_left_inj _).1 hbits

/-- The lower half of the register moves up; the upper half acts as the byte does (R123 item 4). -/
theorem crcUpdate_eq_table (c : Half) (b : Byte) :
    crcUpdate c b = crcUpdate 0#16 (b ^^^ (c >>> 8).setWidth 8) ^^^ (c <<< 8) := by
  have hc : c = ((c >>> 8).setWidth 8).setWidth 16 <<< 8 ^^^ (c.setWidth 8).setWidth 16 :=
    (bytes_append c).symm.trans (append_eq_xor _ _)
  have hin : c ^^^ b.setWidth 16 <<< 8
      = (0#16 ^^^ (b ^^^ (c >>> 8).setWidth 8).setWidth 16 <<< 8) ^^^ (c.setWidth 8).setWidth 16 := by
    conv_lhs => rw [hc]
    rw [BitVec.zero_xor, BitVec.setWidth_xor, BitVec.shiftLeft_xor_distrib]
    ac_rfl
  have hlow : ((c.setWidth 8).setWidth 16 : Half) <<< 8 = c <<< 8 := by bv_omega
  rw [crcUpdate_eq, crcUpdate_eq, hin, crcBits_xor, crcBits_eight_setWidth, hlow]

/-! ### The checksum of a sequence -/

theorem crcFrom_append (c : Half) (a b : List Byte) : crcFrom c (a ++ b) = crcFrom (crcFrom c a) b := by
  induction a generalizing c with
  | nil => rfl
  | cons x a ih => exact ih (crcUpdate c x)

theorem crcFrom_injective (bytes : List Byte) : Function.Injective fun c => crcFrom c bytes := by
  induction bytes with
  | nil => exact Function.injective_id
  | cons b bytes ih => exact fun c d h => crcUpdate_injective_left b (ih h)

theorem crcFrom_zipWith_xor {a b : List Byte} (h : a.length = b.length) (c d : Half) :
    crcFrom (c ^^^ d) (List.zipWith (· ^^^ ·) a b) = crcFrom c a ^^^ crcFrom d b := by
  induction a generalizing b c d with
  | nil =>
    obtain rfl := List.length_eq_zero_iff.1 h.symm
    rfl
  | cons x a ih =>
    obtain ⟨y, b, rfl⟩ := List.exists_cons_of_length_eq_add_one h.symm
    calc crcFrom (crcUpdate (c ^^^ d) (x ^^^ y)) (List.zipWith (· ^^^ ·) a b)
      _ = crcFrom (crcUpdate c x ^^^ crcUpdate d y) (List.zipWith (· ^^^ ·) a b) := by rw [crcUpdate_xor]
      _ = crcFrom (crcUpdate c x) a ^^^ crcFrom (crcUpdate d y) b := ih (Nat.succ.inj h) _ _

theorem crcFrom_zero_replicate (n : Nat) : crcFrom 0#16 (List.replicate n 0#8) = 0#16 := by
  induction n with
  | zero => rfl
  | succ n ih => rw [List.replicate_succ, crcFrom, crcUpdate_zero_zero, ih]

/-- The register's own two bytes, high byte first, empty it: each meets itself at the top and the rest moves up. -/
theorem crcFrom_own_bytes (c : Half) : crcFrom c [(c >>> 8).setWidth 8, c.setWidth 8] = 0#16 := by
  have hhigh : crcUpdate c ((c >>> 8).setWidth 8) = c <<< 8 := by
    rw [crcUpdate_eq_table, BitVec.xor_self, crcUpdate_zero_zero, BitVec.zero_xor]
  have htop : (c <<< 8 >>> 8).setWidth 8 = c.setWidth 8 := by bv_omega
  rw [crcFrom, crcFrom, crcFrom, hhigh, crcUpdate_eq_table, htop, BitVec.xor_self, crcUpdate_zero_zero, BitVec.zero_xor,
    ← BitVec.shiftLeft_add, BitVec.shiftLeft_eq_zero (le_refl 16)]

/-- Two bytes are sixteen bit steps of the value they spell: the second need not wait for the first (R127). -/
theorem crc16_pair (a b : Byte) : crc16 [a, b] = crcBits 16 (a ++ b) :=
  calc crc16 [a, b]
    _ = crcUpdate (crcUpdate 0#16 a) b := rfl
    _ = crcBits 8 (crcBits 8 (a.setWidth 16 <<< 8) ^^^ b.setWidth 16 <<< 8) := by
      rw [crcUpdate_eq, crcUpdate_eq, BitVec.zero_xor]
    _ = crcBits 8 (crcBits 8 (a ++ b)) := by rw [← crcBits_eight_setWidth b, ← crcBits_xor, append_eq_xor]
    _ = crcBits 16 (a ++ b) := (crcBits_add 8 8 _).symm

/-- Settles O15: additivity, byte by byte, and the table form of the byte step. -/
theorem crcIsLinear : Obligations.CrcIsLinear :=
  ⟨fun _ _ hlen => crcFrom_zipWith_xor hlen 0#16 0#16, crcUpdate_eq_table⟩

/-- Settles O16: zero bytes leave the empty register empty, and a register is emptied by its own bytes. -/
theorem crcOfZerosAndOfItsOwnChecksum : Obligations.CrcOfZerosAndOfItsOwnChecksum := by
  constructor
  · intro n b
    rw [crc16, crcFrom_append]
    exact congrArg (crcFrom · b) (crcFrom_zero_replicate n)
  · intro b
    rw [crc16, crcFrom_append]
    exact crcFrom_own_bytes (crc16 b)

/-- Settles O17: the byte step is one-to-one in the byte, and the bytes that follow keep two registers apart. -/
theorem crcSeesEverySingleBitChange : Obligations.CrcSeesEverySingleBitChange := by
  intro a c b k hk h
  simp only [crc16, crcFrom_append] at h
  have hbyte : b ^^^ (1#8 <<< k) = b := crcUpdate_injective_right _ (crcFrom_injective c h)
  have hbit := congrArg (BitVec.getLsbD · k) hbyte
  simp [hk] at hbit

/-- Settles O18: sixteen bit steps are a bijection, and so is laying two bytes side by side. -/
theorem crcOfTwoBytesIsOneToOne : Obligations.CrcOfTwoBytesIsOneToOne := by
  intro c
  simp only [crc16_pair]
  exact ((crcBits_bijective 16).comp append_bijective).existsUnique c

/-- Settles O13: the model's bit step and its iteration are those of R121. -/
theorem crcUpdateIsEightBitSteps : Obligations.CrcUpdateIsEightBitSteps := by
  intro c b
  rw [crcUpdate_eq, crcBits_eq_iterate]
  rfl

end Sys2Proof.Proofs
end

section
/-! PROOFS. The CRC unit (R124 to R126): its two operations and the read of its accumulator, each with the whole next state,
and a sequence of bytes fed to it. -/

namespace Sys2Proof.Proofs

open Sys2Proof Sys2Proof.Machine
open Sys2Proof.Spec (answered)

theorem answerOk_eq (d : Word) (s : State) : answerOk d s = answered .ok d s := by
  simp [answerOk, answer, answered]

theorem exec_crcClr (s : State) : exec .crcClr s = .next (answered .ok 0 { s with crcAcc := 0 }) :=
  congrArg Host.Outcome.next (answerOk_eq 0 _)

theorem exec_crcUpd (b : Byte) (s : State) :
    exec (.crcUpd b) s
      = .next (answered .ok ((crcUpdate s.crcAcc b).setWidth 32) { s with crcAcc := crcUpdate s.crcAcc b }) :=
  congrArg Host.Outcome.next (answerOk_eq _ _)

/-- `CRC.RD` is `CSR.RD` of register 0x00 (R41, R126). -/
theorem exec_csrRd_crcAcc (s : State) : exec (.csrRd 0x00) s = .next (answered .ok (s.crcAcc.setWidth 32) s) :=
  congrArg Host.Outcome.next (answerOk_eq _ _)

/-- Settles O11: the row of R81 and what the operation does. -/
theorem crcClrClearsTheAccumulator : Obligations.CrcClrClearsTheAccumulator :=
  ⟨portLine_of_row (r := (0x10, 0, fun _ => .crcClr)) (by simp [Spec.cmdRows]), exec_crcClr⟩

/-- Settles O12: the row of R81 and what the operation does. -/
theorem crcUpdTakesOneByte : Obligations.CrcUpdTakesOneByte :=
  ⟨portLine_of_row (r := (0x11, 8, fun a => .crcUpd (a.setWidth 8))) (by simp [Spec.cmdRows]), exec_crcUpd⟩

/-- Feeding bytes and reading (R126), from any accumulator: only the accumulator changes, for each answer overwrites the one
before. -/
theorem execAll_crcUpd_then_csrRd (bytes : List Byte) (s : State) :
    ∃ rs, execAll (bytes.map .crcUpd ++ [.csrRd 0x00]) s
      = some (answered .ok ((crcFrom s.crcAcc bytes).setWidth 32) { s with crcAcc := crcFrom s.crcAcc bytes },
          rs ++ [⟨.ok, (crcFrom s.crcAcc bytes).setWidth 32⟩]) := by
  induction bytes generalizing s with
  | nil => exact ⟨[], execAll_cons_of_next (exec_csrRd_crcAcc s) rfl⟩
  | cons b bytes ih =>
    obtain ⟨rs, hrest⟩ := ih (answered .ok ((crcUpdate s.crcAcc b).setWidth 32) { s with crcAcc := crcUpdate s.crcAcc b })
    refine ⟨⟨.ok, (crcUpdate s.crcAcc b).setWidth 32⟩ :: rs, ?_⟩
    rw [List.map_cons, List.cons_append, execAll_cons_of_next (exec_crcUpd b s) rfl, hrest]
    rfl

/-- Settles O19: the read and the byte step answer the accumulator; after `CRC.CLR` the bytes are fed from `CRC_INIT`. -/
theorem crcUnitComputesTheChecksum : Obligations.CrcUnitComputesTheChecksum := by
  refine ⟨exec_csrRd_crcAcc, fun b s => ⟨_, exec_crcUpd b s, rfl⟩, fun bytes s => ?_⟩
  obtain ⟨rs, hrest⟩ := execAll_crcUpd_then_csrRd bytes (answered .ok 0 { s with crcAcc := 0 })
  refine ⟨⟨.ok, 0⟩ :: rs, ?_⟩
  rw [List.cons_append, execAll_cons_of_next (exec_crcClr s) rfl, hrest]
  rfl

end Sys2Proof.Proofs
end

section
/-! PROOFS. The checksum as a polynomial remainder (R123): in the ring of polynomials modulo `G(x)` a bit step multiplies the
register by x, so that feeding bytes builds `M(x)` times x^16. -/

namespace Sys2Proof.Proofs

open Sys2Proof Sys2Proof.Machine Polynomial
open Sys2Proof.Spec (polyOf bitsOf messagePoly registerPoly generator)

/-! ### Polynomials of bits -/

/-- A bit as a coefficient. -/
noncomputable def bitPoly (b : Bool) : (ZMod 2)[X] := if b then 1 else 0

theorem bitPoly_xor (a b : Bool) : bitPoly (a ^^ b) = bitPoly a + bitPoly b := by
  cases a <;> cases b <;> simp [bitPoly, CharTwo.add_self_eq_zero]

@[simp] theorem bitPoly_false : bitPoly false = 0 := rfl

@[simp] theorem bitPoly_true : bitPoly true = 1 := rfl

theorem polyOf_append (a b : List Bool) : polyOf (a ++ b) = polyOf a * X ^ b.length + polyOf b := by
  induction b using List.reverseRecOn with
  | nil => simp [polyOf]
  | append_singleton b x ih =>
    have hsnoc (l : List Bool) : polyOf (l ++ [x]) = polyOf l * X + bitPoly x := by simp [polyOf, bitPoly]
    rw [← List.append_assoc, hsnoc, hsnoc, ih, List.length_append, List.length_singleton]
    ring

/-- Bit `k` of a value that is spelled top bit first is the coefficient of x^k. -/
theorem polyOf_topFirst (n : Nat) (f : Nat → Bool) :
    polyOf ((List.range n).map fun i => f (n - 1 - i)) = ∑ k ∈ Finset.range n, bitPoly (f k) * X ^ k := by
  induction n with
  | zero => simp [polyOf]
  | succ n ih =>
    have htop : ((List.range (n + 1)).map fun i => f (n + 1 - 1 - i))
        = [f n] ++ (List.range n).map fun i => f (n - 1 - i) := by
      simp [List.range_succ_eq_map, Function.comp_def, Nat.sub_sub, Nat.add_comm]
    have hone : polyOf [f n] = bitPoly (f n) := by simp [polyOf, bitPoly]
    rw [htop, polyOf_append, ih, hone, List.length_map, List.length_range, Finset.sum_range_succ, add_comm]

theorem registerPoly_eq_sum (c : Half) : registerPoly c = ∑ k ∈ Finset.range 16, bitPoly (c.getLsbD k) * X ^ k :=
  polyOf_topFirst 16 c.getLsbD

theorem polyOf_bitsOf (b : Byte) : polyOf (bitsOf b) = ∑ k ∈ Finset.range 8, bitPoly (b.getLsbD k) * X ^ k :=
  polyOf_topFirst 8 b.getLsbD

theorem registerPoly_xor (c d : Half) : registerPoly (c ^^^ d) = registerPoly c + registerPoly d := by
  simp only [registerPoly_eq_sum, BitVec.getLsbD_xor, bitPoly_xor, add_mul, Finset.sum_add_distrib]

/-- A byte in the upper half: its polynomial, eight powers up. -/
theorem registerPoly_byte (b : Byte) : registerPoly (b.setWidth 16 <<< 8) = polyOf (bitsOf b) * X ^ 8 := by
  have hlow : ∑ k ∈ Finset.range 8, bitPoly ((b.setWidth 16 <<< 8 : Half).getLsbD k) * X ^ k = 0 :=
    Finset.sum_eq_zero fun k hk => by simp [Finset.mem_range.1 hk]
  have hhigh (k : Nat) (hk : k ∈ Finset.range 8) : (b.setWidth 16 <<< 8 : Half).getLsbD (8 + k) = b.getLsbD k := by
    have hin : 8 + k < 16 := Nat.add_lt_add_left (Finset.mem_range.1 hk) 8
    simp [hin]
  rw [registerPoly_eq_sum, polyOf_bitsOf, Finset.sum_range_add _ 8 8, hlow, zero_add, Finset.sum_mul]
  refine Finset.sum_congr rfl fun k hk => ?_
  rw [hhigh k hk]
  ring

/-- A shift multiplies by x; the bit shifted out is the x^16 that is lost. -/
theorem registerPoly_shiftLeft (r : Half) :
    registerPoly (r <<< 1) + bitPoly (r.getLsbD 15) * X ^ 16 = X * registerPoly r := by
  have hmoved (k : Nat) (hk : k ∈ Finset.range 15) :
      bitPoly ((r <<< 1).getLsbD (k + 1)) * X ^ (k + 1) = X * (bitPoly (r.getLsbD k) * X ^ k) := by
    have hbit : (r <<< 1).getLsbD (k + 1) = r.getLsbD k := by
      simpa using fun _ => Nat.succ_lt_succ (Finset.mem_range.1 hk)
    rw [hbit]
    ring
  have hbottom : bitPoly ((r <<< 1).getLsbD 0) = 0 := by simp
  rw [registerPoly_eq_sum, registerPoly_eq_sum, Finset.sum_range_succ', hbottom, Finset.sum_congr rfl hmoved,
    Finset.sum_range_succ _ 15, mul_add, Finset.mul_sum]
  ring

theorem registerPoly_crcPoly : registerPoly Config.crcPoly + X ^ 16 = generator := by
  have hbits : (List.range 16).map (fun i => Config.crcPoly.getLsbD (15 - i))
      = [false, false, false, true, false, false, false, false, false, false, true, false, false, false, false, true] := by
    decide
  rw [registerPoly, hbits]
  simp only [polyOf, generator, List.foldl_cons, List.foldl_nil, Bool.false_eq_true, if_true, if_false]
  ring

/-- A bit step multiplies by x and takes `G(x)` off when x^16 appears (R123). -/
theorem registerPoly_crcBit (r : Half) :
    registerPoly (crcBit r) = X * registerPoly r + bitPoly (r.getLsbD 15) * generator := by
  have hshift := registerPoly_shiftLeft r
  rw [crcBit_eq]
  cases htop : r.getLsbD 15 with
  | false =>
    rw [htop, bitPoly_false, zero_mul, add_zero] at hshift
    rw [if_neg Bool.false_ne_true, BitVec.xor_zero, hshift, bitPoly_false, zero_mul, add_zero]
  | true =>
    rw [htop, bitPoly_true, one_mul] at hshift
    have htwice : (X ^ 16 + X ^ 16 : (ZMod 2)[X]) = 0 := CharTwo.add_self_eq_zero _
    rw [if_pos rfl, registerPoly_xor, bitPoly_true, one_mul, ← registerPoly_crcPoly, ← hshift]
    linear_combination -htwice

theorem degree_registerPoly_lt (c : Half) : (registerPoly c).degree < 16 := by
  have hterm (k : Nat) (hk : k ∈ Finset.range 16) : bitPoly (c.getLsbD k) * X ^ k ∈ degreeLT (ZMod 2) 16 := by
    cases c.getLsbD k with
    | false => simp
    | true => simpa [mem_degreeLT] using hk
  rw [registerPoly_eq_sum]
  exact mem_degreeLT.1 (Submodule.sum_mem _ hterm)

theorem length_flatMap_bitsOf (bytes : List Byte) : (bytes.flatMap bitsOf).length = 8 * bytes.length := by
  induction bytes with
  | nil => rfl
  | cons b bytes ih => rw [List.flatMap_cons, List.length_append, ih, List.length_cons, bitsOf, List.length_map,
      List.length_range, Nat.mul_succ, Nat.add_comm]

theorem messagePoly_cons (b : Byte) (bytes : List Byte) :
    messagePoly (b :: bytes) = polyOf (bitsOf b) * X ^ (8 * bytes.length) + messagePoly bytes := by
  rw [messagePoly, List.flatMap_cons, polyOf_append, length_flatMap_bitsOf, messagePoly]

/-! ### Modulo the generator -/

theorem generator_monic : generator.Monic := by
  unfold generator
  monicity!

theorem degree_generator : generator.degree = 16 := by
  unfold generator
  compute_degree!

/-- The residue of a polynomial modulo `G(x)`. -/
noncomputable abbrev modG : (ZMod 2)[X] →+* AdjoinRoot generator := AdjoinRoot.mk generator

theorem modG_crcBits (n : Nat) (r : Half) : modG (registerPoly (crcBits n r)) = modG (X ^ n * registerPoly r) := by
  induction n generalizing r with
  | zero => rw [crcBits, pow_zero, one_mul]
  | succ n ih =>
    have hstep : modG (registerPoly (crcBit r)) = modG (X * registerPoly r) := by simp [registerPoly_crcBit]
    rw [crcBits, ih, map_mul, hstep, ← map_mul, pow_succ, mul_assoc]

theorem modG_crcUpdate (c : Half) (b : Byte) :
    modG (registerPoly (crcUpdate c b)) = modG (X ^ 8 * registerPoly c + polyOf (bitsOf b) * X ^ 16) := by
  rw [crcUpdate_eq, modG_crcBits, registerPoly_xor, registerPoly_byte]
  exact congrArg modG (by ring)

/-- Each byte of a sequence moves the register up by x^8 and enters at x^16. -/
theorem modG_crcFrom (c : Half) (bytes : List Byte) :
    modG (registerPoly (crcFrom c bytes))
      = modG (X ^ (8 * bytes.length) * registerPoly c + messagePoly bytes * X ^ 16) := by
  induction bytes generalizing c with
  | nil => simp [crcFrom, messagePoly, polyOf]
  | cons b bytes ih =>
    rw [crcFrom, ih, map_add, map_mul, modG_crcUpdate, ← map_mul, ← map_add, messagePoly_cons, List.length_cons]
    exact congrArg modG (by ring)

/-- Settles O14: the register's polynomial is congruent to `M(x)` x^16 and of smaller degree than `G(x)`. -/
theorem crcIsThePolynomialRemainder : Obligations.CrcIsThePolynomialRemainder := by
  intro bytes
  have hempty : registerPoly 0#16 = 0 := by simp [registerPoly_eq_sum]
  have hcongr : modG (registerPoly (crc16 bytes)) = modG (messagePoly bytes * X ^ 16) := by
    have hfrom := modG_crcFrom 0#16 bytes
    rwa [hempty, mul_zero, zero_add] at hfrom
  have hdegree : (registerPoly (crc16 bytes)).degree < generator.degree := by
    rw [degree_generator]
    exact degree_registerPoly_lt _
  calc registerPoly (crc16 bytes)
    _ = registerPoly (crc16 bytes) %ₘ generator := ((modByMonic_eq_self_iff generator_monic).2 hdegree).symm
    _ = (messagePoly bytes * X ^ 16) %ₘ generator :=
      modByMonic_eq_of_dvd_sub generator_monic (AdjoinRoot.mk_eq_mk.1 hcongr)

end Sys2Proof.Proofs
end

section
/-! PROOFS. The encoder's three operations (R143 to R145), each outcome with the whole next state, and the two forms of a
frame's header (R88, R89). -/

namespace Sys2Proof.Proofs

open Sys2Proof Sys2Proof.Machine
open Sys2Proof.Spec (logged emitting cmdRows)

/-! ### Header and length bytes -/

theorem hiByte_eq (h : Half) : hiByte h = (h >>> 8).setWidth 8 := by
  refine BitVec.eq_of_toNat_eq ?_
  rw [hiByte, BitVec.extractLsb'_toNat, BitVec.toNat_setWidth, BitVec.toNat_ushiftRight]

theorem loByte_eq (h : Half) : loByte h = h.setWidth 8 := BitVec.setWidth_eq_extractLsb' (by decide) |>.symm

/-- The model compares with 256, which `ENC.START` and `encode` refuse before (R15). -/
theorem frameHead_short {len : Half} (h : len.toNat ≤ 256) : frameHead len = [(0x02 : Byte), len.setWidth 8] := by
  rw [frameHead, if_pos h, loByte_eq]
  rfl

theorem frameHead_long {len : Half} (h : 256 < len.toNat) :
    frameHead len = [(0x03 : Byte), (len >>> 8).setWidth 8, len.setWidth 8] := by
  rw [frameHead, if_neg (Nat.not_le.2 h), bytesOf16, hiByte_eq, loByte_eq]
  rfl

theorem frameTail_eq (c : Half) : frameTail c = [(c >>> 8).setWidth 8, c.setWidth 8, 0x03] := by
  rw [frameTail, bytesOf16, hiByte_eq, loByte_eq]
  rfl

/-! ### What the operations do -/

/-- A refusal is its bit of R31 and its response, and nothing else (R258). -/
theorem refuse_eq_logged (r : PortRefusal) (s : State) : refuse r s = logged r.status r.logBit 0 s := by
  simp [refuse, answer, logged, withLogBit]

section Outcomes

variable {s : State}

theorem exec_encStart_of_pay (len : Half) (hpay : s.encState = .pay) :
    exec (.encStart len) s = .next (refuse .illegalState s) :=
  if_pos (by simp [hpay])

theorem exec_encStart_refused (hidle : s.encState = .idle) :
    exec (.encStart 256) s = .next (refuse .lengthUnrepresentable s) :=
  (if_neg (by simp [hidle])).trans (if_pos rfl)

/-- The empty frame is emitted whole, its checksum being that of no bytes. -/
theorem exec_encStart_zero (hidle : s.encState = .idle) :
    exec (.encStart 0) s = .next (emitting [0x02, 0x00, 0x00, 0x00, 0x03] { s with encCrc := 0 }) :=
  (if_neg (by simp [hidle])).trans ((if_neg (by decide)).trans (if_pos rfl))

theorem exec_encStart_begins {len : Half} (hidle : s.encState = .idle) (hrefused : len ≠ 256) (hzero : len ≠ 0) :
    exec (.encStart len) s
      = .next (emitting (frameHead len) { s with encCrc := 0, encRem := len, encState := .pay }) :=
  (if_neg (by simp [hidle])).trans ((if_neg hrefused).trans (if_neg hzero))

theorem exec_encPush_of_idle (b : Byte) (hidle : s.encState = .idle) :
    exec (.encPush b) s = .next (refuse .illegalState s) :=
  if_pos (by simp [hidle])

theorem exec_encPush_last (b : Byte) (hpay : s.encState = .pay) (hlast : s.encRem = 1) :
    exec (.encPush b) s = .next (emitting (b :: frameTail (crcUpdate s.encCrc b))
      { s with encCrc := crcUpdate s.encCrc b, encRem := 0, encState := .idle }) :=
  (if_neg (by simp [hpay])).trans (if_pos hlast)

theorem exec_encPush_more (b : Byte) (hpay : s.encState = .pay) (hmore : s.encRem ≠ 1) :
    exec (.encPush b) s
      = .next (emitting [b] { s with encCrc := crcUpdate s.encCrc b, encRem := s.encRem - 1 }) :=
  (if_neg (by simp [hpay])).trans (if_neg hmore)

end Outcomes

/-! ### The three statements -/

/-- Settles O20: PAY is judged first, then the length 256; the empty frame is whole and any other gets its header of one form
or the other. -/
theorem encStartBeginsAFrame : Obligations.EncStartBeginsAFrame := by
  refine ⟨portLine_of_row (r := (0x20, 16, fun a => .encStart (a.setWidth 16))) (by simp [cmdRows]),
    fun len s hpay => ?_, fun len s hidle => ⟨fun hlen => ?_, fun hlen => ?_, fun hpos hshort => ?_, fun hlong => ?_⟩⟩
  · exact refuse_eq_logged .illegalState s ▸ exec_encStart_of_pay len hpay
  · obtain rfl : len = 256 := BitVec.eq_of_toNat_eq hlen
    exact refuse_eq_logged .lengthUnrepresentable s ▸ exec_encStart_refused hidle
  · obtain rfl : len = 0 := BitVec.eq_of_toNat_eq hlen
    exact exec_encStart_zero hidle
  · rw [exec_encStart_begins hidle (by bv_omega) (by bv_omega), frameHead_short (by omega)]
  · rw [exec_encStart_begins hidle (by bv_omega) (by bv_omega), frameHead_long (by omega)]

/-- Settles O21: the last byte brings the tail of the frame with it, any other only itself. -/
theorem encPushTakesOnePayloadByte : Obligations.EncPushTakesOnePayloadByte := by
  refine ⟨portLine_of_row (r := (0x21, 8, fun a => .encPush (a.setWidth 8))) (by simp [cmdRows]),
    fun b s hidle => ?_, fun b s hpay => ⟨fun hlast => ?_, exec_encPush_more b hpay⟩⟩
  · exact refuse_eq_logged .illegalState s ▸ exec_encPush_of_idle b hidle
  · rw [exec_encPush_last b hpay hlast, frameTail_eq]

/-- Settles O22: the row of R81 and what the operation does, which does not look at the state. -/
theorem encAbortAbandonsTheFrame : Obligations.EncAbortAbandonsTheFrame :=
  ⟨portLine_of_row (r := (0x22, 0, fun _ => .encAbort)) (by simp [cmdRows]),
    fun _ => congrArg Host.Outcome.next (answerOk_eq 0 _)⟩

end Sys2Proof.Proofs
end

section
/-! PROOFS. A frame as a whole (R141, R142, R146): its bytes, that they tell the payload, and that `ENC.START` and the pushes
emit exactly them. -/

namespace Sys2Proof.Proofs

open Sys2Proof Sys2Proof.Machine
open Sys2Proof.Spec (emitting)

/-! ### The bytes of a frame -/

theorem encodeFrame_eq_some {p f : List Byte} :
    encodeFrame p = some f ↔ p.length ≠ 256 ∧ p.length ≤ 65535
      ∧ f = frameHead (BitVec.ofNat 16 p.length) ++ p ++ frameTail (crc16 p) := by
  rw [encodeFrame, Config.lenMax]
  split_ifs with hrefused
  · simp only [false_iff]
    omega
  · rw [Option.some.injEq, eq_comm (b := f)]
    exact ⟨fun hf => ⟨by omega, by omega, hf⟩, fun ⟨_, _, hf⟩ => hf⟩

/-- A payload that `encode` takes has its length in the length operand (R141). -/
theorem toNat_lengthOperand {p : List Byte} (hmax : p.length ≤ 65535) : (BitVec.ofNat 16 p.length).toNat = p.length := by
  rw [BitVec.toNat_ofNat]
  exact Nat.mod_eq_of_lt (by omega)

/-- Two bytes before the payload in the short form and three in the long form (R88, R89), three behind it (R142 item 1). -/
theorem length_of_encodeFrame {p f : List Byte} (h : encodeFrame p = some f) :
    f.length = if p.length ≤ 255 then p.length + 5 else p.length + 6 := by
  obtain ⟨hrefused, hmax, rfl⟩ := encodeFrame_eq_some.1 h
  have hlen : (BitVec.ofNat 16 p.length).toNat = p.length := toNat_lengthOperand hmax
  rw [List.length_append, List.length_append, length_frameTail]
  split_ifs with hshort
  · rw [frameHead_short (by omega)]
    simp only [List.length_cons, List.length_nil]
    omega
  · rw [frameHead_long (by omega)]
    simp only [List.length_cons, List.length_nil]
    omega

theorem head_frameHead (len : Half) : (frameHead len).head? = some 0x02#8 ∨ (frameHead len).head? = some 0x03#8 := by
  rw [frameHead]
  split_ifs
  · exact .inl rfl
  · exact .inr rfl

theorem getLast_frameTail (c : Half) : (frameTail c).getLast? = some 0x03#8 := rfl

/-- A frame's length tells the payload's, no length lying between the two forms; then the payload stands at a known place
(R142 item 3). -/
theorem encodeFrame_injective {p q f : List Byte} (hp : encodeFrame p = some f) (hq : encodeFrame q = some f) : p = q := by
  have hlen : p.length = q.length := by
    have hpf := length_of_encodeFrame hp
    have hqf := length_of_encodeFrame hq
    split_ifs at hpf hqf <;> omega
  obtain ⟨-, -, hpf⟩ := encodeFrame_eq_some.1 hp
  obtain ⟨-, -, hqf⟩ := encodeFrame_eq_some.1 hq
  rw [hpf, hlen, List.append_assoc, List.append_assoc] at hqf
  exact (List.append_inj (List.append_cancel_left hqf) hlen).1

/-- Settles O24: the lengths of head and tail, their outer bytes, and the place of the payload between them. -/
theorem encodeShapeAndInjectivity : Obligations.EncodeShapeAndInjectivity := by
  refine ⟨fun p f h => ⟨length_of_encodeFrame h, ?_⟩, fun p q f => encodeFrame_injective⟩
  obtain ⟨-, -, rfl⟩ := encodeFrame_eq_some.1 h
  constructor
  · rw [List.append_assoc, List.head?_append]
    obtain hhead | hhead := head_frameHead (BitVec.ofNat 16 p.length)
    · exact .inl (by rw [hhead]; rfl)
    · exact .inr (by rw [hhead]; rfl)
  · rw [List.getLast?_append, getLast_frameTail]
    rfl

/-! ### Operations that emit -/

/-- From `s` the operations all answer `OK`, emit `bytes` between them and count them in their data, and leave the block as in
`u` (R86). -/
def EmitsInAll (is : List Instr) (s u : State) (bytes : List Byte) : Prop :=
  ∃ t rs, execAll is s = some (t, rs)
    ∧ t = { u with txout := s.txout ++ bytes, rsp := t.rsp, emitted := t.emitted }
    ∧ rs.length = is.length ∧ (∀ r ∈ rs, r.status = .ok) ∧ (rs.map (·.data.toNat)).sum = bytes.length

/-- One operation that emits, then more of them: what the first leaves in the outputs is overwritten. -/
theorem emitsInAll_cons {i : Instr} {is : List Instr} {s v u : State} {first bytes : List Byte}
    (hexec : exec i s = .next (emitting first v)) (htx : v.txout = s.txout) (hfirst : first.length < 2 ^ 32)
    (hrest : EmitsInAll is (emitting first v) u bytes) : EmitsInAll (i :: is) s u (first ++ bytes) := by
  obtain ⟨t, rs, hrun, ht, hlen, hok, hsum⟩ := hrest
  refine ⟨t, ⟨.ok, BitVec.ofNat 32 first.length⟩ :: rs, ?_, ?_, ?_, ?_, ?_⟩
  · rw [execAll_cons_of_next hexec rfl, hrun]
    rfl
  · rw [← List.append_assoc, ← htx]
    exact ht
  · rw [List.length_cons, List.length_cons, hlen]
  · exact List.forall_mem_cons.2 ⟨rfl, hok⟩
  · rw [List.map_cons, List.sum_cons, hsum, List.length_append, BitVec.toNat_ofNat,
      Nat.mod_eq_of_lt hfirst]

theorem emitsInAll_singleton {i : Instr} {s v : State} {bytes : List Byte}
    (hexec : exec i s = .next (emitting bytes v)) (htx : v.txout = s.txout) (hbytes : bytes.length < 2 ^ 32) :
    EmitsInAll [i] s v bytes := by
  have hnone : EmitsInAll [] (emitting bytes v) v [] :=
    ⟨emitting bytes v, [], rfl, by simp [emitting], rfl, by simp, rfl⟩
  simpa using emitsInAll_cons hexec htx hbytes hnone

/-! ### The pushes of a payload -/

/-- In PAY with `ENC_REM` bytes to come: the payload byte by byte, the checksum taking each in, and the tail behind the last
(R144). -/
theorem emitsInAll_encPush {p : List Byte} {s : State} (hne : p ≠ []) (hpay : s.encState = .pay)
    (hrem : s.encRem.toNat = p.length) :
    EmitsInAll (p.map .encPush) s { s with encCrc := crcFrom s.encCrc p, encRem := 0, encState := .idle }
      (p ++ frameTail (crcFrom s.encCrc p)) := by
  induction p generalizing s with
  | nil => exact absurd rfl hne
  | cons b p ih =>
    rw [List.length_cons] at hrem
    by_cases hlast : p = []
    · subst hlast
      have hone : s.encRem = 1 := BitVec.eq_of_toNat_eq hrem
      exact emitsInAll_singleton (exec_encPush_last b hpay hone) rfl (by simp)
    · have hpos : 0 < p.length := List.length_pos_iff.2 hlast
      have hmore : s.encRem ≠ 1 := by bv_omega
      have hrest : (s.encRem - 1).toNat = p.length := by bv_omega
      exact emitsInAll_cons (first := [b]) (exec_encPush_more b hpay hmore) rfl (by simp) (ih hlast hpay hrest)

/-- In IDLE every push is refused; refusals after the first add nothing to it (R144, R258). -/
theorem execAll_encPush_of_idle {p : List Byte} {s : State} (hne : p ≠ []) (hidle : s.encState = .idle) :
    execAll (p.map .encPush) s = some (refuse .illegalState s, List.replicate p.length ⟨.illegalState, 0⟩) := by
  induction p generalizing s with
  | nil => exact absurd rfl hne
  | cons b p ih =>
    rw [List.map_cons, execAll_cons_of_next (exec_encPush_of_idle b hidle) rfl]
    by_cases hlast : p = []
    · subst hlast
      rfl
    · rw [ih hlast ((refuse_encState s _).trans hidle), refuse_refuse]
      rfl

/-! ### A whole frame -/

/-- `ENC.FRAME P` from IDLE: the empty frame comes with `ENC.START` alone; otherwise the header does and the pushes follow. -/
theorem emitsInAll_encFrameOps {p f : List Byte} {s : State} (hidle : s.encState = .idle) (hzero : s.encRem = 0)
    (hf : encodeFrame p = some f) : EmitsInAll (encFrameOps p) s { s with encCrc := crc16 p } f := by
  obtain ⟨hrefused, hmax, rfl⟩ := encodeFrame_eq_some.1 hf
  have hlen : (BitVec.ofNat 16 p.length).toNat = p.length := toNat_lengthOperand hmax
  by_cases hempty : p = []
  · subst hempty
    exact emitsInAll_singleton (exec_encStart_zero hidle) rfl (by decide)
  · have hpos : 0 < p.length := List.length_pos_iff.2 hempty
    have hstart := exec_encStart_begins (len := BitVec.ofNat 16 p.length) hidle (by bv_omega) (by bv_omega)
    have hhead : (frameHead (BitVec.ofNat 16 p.length)).length < 2 ^ 32 := by
      have := length_frameHead (BitVec.ofNat 16 p.length)
      omega
    have hafter : { s with encCrc := crc16 p } = { s with encCrc := crc16 p, encRem := 0, encState := .idle } := by
      rw [← hidle, ← hzero]
    rw [hafter, List.append_assoc]
    exact emitsInAll_cons hstart rfl hhead (emitsInAll_encPush hempty rfl hlen)

/-- Settles O23: the frame of every length but 256; for that one `ENC.START` is refused, and so is every push, the encoder
still being in IDLE. -/
theorem encFrameEmitsEncode : Obligations.EncFrameEmitsEncode := by
  constructor
  · intro p s hidle hzero hmax hrefused
    have hf := encodeFrame_eq_some.2 ⟨hrefused, hmax, rfl⟩
    obtain ⟨t, rs, hrun, ht, hlen, hok, hsum⟩ := emitsInAll_encFrameOps hidle hzero hf
    refine ⟨_, t, rs, hf, hrun, ht, ?_, hok, hsum⟩
    rw [hlen, encFrameOps, List.length_cons, List.length_map]
  · intro p s hidle hlen
    have hne : p ≠ [] := List.ne_nil_of_length_pos (by omega)
    refine ⟨refuse .illegalState (refuse .lengthUnrepresentable s), ?_, ?_⟩
    · have hstart : exec (.encStart (BitVec.ofNat 16 256)) s = .next (refuse .lengthUnrepresentable s) :=
        exec_encStart_refused hidle
      rw [encFrameOps, hlen, execAll_cons_of_next hstart rfl,
        execAll_encPush_of_idle hne ((refuse_encState s _).trans hidle), hlen]
      rfl
    · have hbits : s.errlog ||| 1#32 <<< 10 ||| 1#32 <<< 9 = s.errlog ||| 0x00000600#32 := BitVec.or_assoc _ _ _
      rw [← hbits, refuse_eq_logged, refuse_eq_logged]
      rfl

end Sys2Proof.Proofs
end

section
/-! PROOFS. The decoder's operations: `DEC.BYTE` in each of its five states (R165), each outcome with the whole next state,
`DEC.RD` (R166), `DEC.DROP` (R167), and what an error leaves readable (R168). -/

namespace Sys2Proof.Proofs

open Sys2Proof Sys2Proof.Machine
open Sys2Proof.Spec (answered logged freshAttempt cmdRows)

/-- An error is its unit's entry, its bit of R31 and its response, and nothing else (R260). -/
theorem raise_eq_logged (e : ProtoError) (info : Word) (s : State) :
    raise e info s = logged e.status e.logBit info (enterError e s) := by
  simp [raise, answer, logged, withLogBit]

theorem exec_decByte_of_takeByte {b : Byte} {s t : State} (h : takeByte b s = some t) : exec (.decByte b) s = .next t :=
  congrArg orFault h

theorem takeByte_of_exec_decByte {b : Byte} {s t : State} (h : exec (.decByte b) s = .next t) : takeByte b s = some t :=
  orFault_eq_next.1 h

/-! ### `DEC.BYTE` by state -/

section ByState

variable {b : Byte} {s : State}

theorem takeByte_unsupported (hst : s.decState = .hdr) (hshort : b ≠ 0x02#8)
    (hlong : ¬(b = 0x03#8 ∧ s.cfg.longDecode = true)) :
    takeByte b s = some (logged .unsupportedHeader 0 (b.setWidth 32)
      { freshAttempt s with decRes := .unsupportedHeader, decCnt := 0 }) := by
  rw [takeByte_hdr hst, decHeader_eq, if_neg hshort, if_neg hlong, raise_unsupportedHeader_eq]
  simp [newAttempt, freshAttempt, logged, hst, zext8]

theorem takeByte_shortLength (hst : s.decState = .len) :
    takeByte b s = some (answered .pending 2
      { s with rxbuf := s.rxbuf.write 1 b, decL := b.setWidth 16, decCnt := 2, decState := .acc }) := by
  rw [takeByte_len hst, decLen_eq, answerPending_eq]
  rfl

theorem takeByte_longLengthHigh (hst : s.decState = .lenh) :
    takeByte b s = some (answered .pending 2
      { s with rxbuf := s.rxbuf.write 1 b, decL := BitVec.ofNat 16 (b.toNat * 256), decCnt := 2, decState := .lenl }) := by
  have hhigh : b.setWidth 16 <<< 8 = BitVec.ofNat 16 (b.toNat * 256) := by bv_omega
  rw [takeByte_lenh hst, decLenHigh_eq, answerPending_eq, hhigh]
  rfl

theorem takeByte_longLengthLow (hst : s.decState = .lenl) :
    takeByte b s = some (answered .pending 3
      { s with rxbuf := s.rxbuf.write 2 b, decL := s.decL + b.setWidth 16, decCnt := 3, decState := .acc }) := by
  rw [takeByte_lenl hst, decLenLow_eq, answerPending_eq]
  rfl

/-- A byte of a frame that it does not complete (R165). -/
theorem takeByte_more (hst : s.decState = .acc) (hsize : frameTotal s ≤ s.cfg.rxbufSize)
    (hmore : s.decCnt.toNat + 1 < frameTotal s) :
    takeByte b s = some (answered .pending (BitVec.ofNat 32 (s.decCnt.toNat + 1))
      { s with rxbuf := s.rxbuf.write s.decCnt.toNat b, decCnt := s.decCnt + 1 }) := by
  have hcount : BitVec.ofNat 17 (s.decCnt.toNat + 1) = s.decCnt + 1 := by bv_omega
  rw [takeByte_acc hst, decAcc_eq_some, answerPending_eq, hcount]
  exact ⟨by omega, .inl ⟨hmore, rfl⟩⟩

/-- The terminator is judged before the checksum (R165, R259). -/
theorem takeByte_wrongTerm (hst : s.decState = .acc) (hsize : frameTotal s ≤ s.cfg.rxbufSize)
    (hcnt : s.decCnt.toNat + 1 = frameTotal s) (hb : b ≠ 0x03) :
    takeByte b s = some (logged .badTerminator 1 (b.setWidth 32)
      { s with rxbuf := s.rxbuf.write s.decCnt.toNat b, decCnt := 0, decState := .hdr, decRes := .badTerminator }) := by
  rw [takeByte_acc hst, decAcc_eq_some, raise_eq_logged]
  exact ⟨by omega, .inr (.inl ⟨hcnt.ge, hb, rfl⟩)⟩

/-- The counterpart of `takeByte_term` with unequal checksums. -/
theorem takeByte_term_mismatch {recv : Half} (hst : s.decState = .acc) (hsize : frameTotal s ≤ s.cfg.rxbufSize)
    (hcnt : s.decCnt.toNat + 1 = frameTotal s)
    (hrecv : be16 (s.rxbuf.read (s.decOff.toNat + s.decL.toNat)) (s.rxbuf.read (s.decOff.toNat + s.decL.toNat + 1)) = recv)
    (hcrc : crc16 (s.rxbuf.slice s.decOff.toNat s.decL.toNat) ≠ recv) :
    takeByte 0x03#8 s = some (logged .checksumMismatch 2 (crc16 (s.rxbuf.slice s.decOff.toNat s.decL.toNat) ++ recv)
      { s with rxbuf := s.rxbuf.write s.decCnt.toNat 0x03, decCnt := 0, decState := .hdr, decRes := .checksumMismatch,
               decCrcCalc := crc16 (s.rxbuf.slice s.decOff.toNat s.decL.toNat), decCrcRecv := recv }) := by
  have hbehind : s.decCnt.toNat = s.decOff.toNat + s.decL.toNat + 2 := by rw [frameTotal] at hcnt; omega
  rw [takeByte_acc hst, decAcc_eq_some]
  refine ⟨by omega, .inr (.inr ⟨hcnt.ge, rfl, decCheck_eq_some.2 ⟨by dsimp only; omega, ?_⟩⟩)⟩
  dsimp only
  rw [Memory.read_write_other _ (by omega), Memory.read_write_other _ (by omega), hrecv,
    Memory.slice_write_outside _ (.inr (by omega)), if_neg hcrc, raise_eq_logged]
  rfl

end ByState

/-- Two checksums side by side, the computed one above (R84, R254). -/
theorem append_eq_ofNat (c r : Half) : (c ++ r : Word) = BitVec.ofNat 32 (c.toNat * 65536 + r.toNat) := by
  refine BitVec.eq_of_toNat_eq ?_
  rw [BitVec.toNat_append, ← Nat.shiftLeft_add_eq_or_of_lt r.isLt, Nat.shiftLeft_eq, BitVec.toNat_ofNat,
    Nat.mod_eq_of_lt (by omega)]

/-- R165 writes the total as `DEC_L + DEC_OFF + 3`, which is `frameTotal`. -/
theorem frameTotal_eq (s : State) : frameTotal s = s.decL.toNat + s.decOff.toNat + 3 := rfl

/-- Settles O25: one lemma per state, and in ACC per outcome. -/
theorem decByteAdvancesTheDecoder : Obligations.DecByteAdvancesTheDecoder := by
  refine ⟨portLine_of_row (r := (0x30, 8, fun a => .decByte (a.setWidth 8))) (by simp [cmdRows]), fun b s hst => ?_,
    fun b s hst => exec_decByte_of_takeByte (takeByte_shortLength hst),
    fun b s hst => exec_decByte_of_takeByte (takeByte_longLengthHigh hst),
    fun b s hst => exec_decByte_of_takeByte (takeByte_longLengthLow hst), fun b s hst hsize => ?_⟩
  · refine ⟨?_, ?_, fun hshort hlong => exec_decByte_of_takeByte (takeByte_unsupported hst hshort hlong)⟩
    · rintro rfl
      exact exec_decByte_of_takeByte (takeByte_hdrShort hst)
    · rintro rfl hlong
      exact exec_decByte_of_takeByte (takeByte_hdrLong hst hlong)
  · rw [← frameTotal_eq] at hsize ⊢
    refine ⟨fun hmore => exec_decByte_of_takeByte (takeByte_more hst hsize hmore),
      fun hcnt hb => exec_decByte_of_takeByte (takeByte_wrongTerm hst hsize hcnt hb), ?_⟩
    rintro hcnt rfl computed recv rfl hrecv
    have hread := BitVec.eq_of_toNat_eq ((toNat_be16 _ _).trans hrecv.symm)
    refine ⟨fun hcrc => ?_, fun hcrc => ?_⟩
    · rw [hcrc]
      exact exec_decByte_of_takeByte (takeByte_term hst hsize hcnt hread hcrc)
    · rw [← append_eq_ofNat]
      exact exec_decByte_of_takeByte (takeByte_term_mismatch hst hsize hcnt hread hcrc)

/-! ### `DEC.RD` and `DEC.DROP` -/

theorem exec_decRd_of_not_ok {s : State} (idx : Half) (h : s.decRes ≠ .ok) :
    exec (.decRd idx) s = .next (logged .noData 13 0 s) :=
  (if_pos h).trans (congrArg Host.Outcome.next (refuse_eq_logged .noData s))

theorem exec_decRd_outside {s : State} {idx : Half} (h : s.decRes = .ok) (hidx : s.decL.toNat ≤ idx.toNat) :
    exec (.decRd idx) s = .next (logged .indexRange 12 0 s) :=
  (if_neg (not_not_intro h)).trans ((if_pos hidx).trans (congrArg Host.Outcome.next (refuse_eq_logged .indexRange s)))

theorem exec_decRd_payload {s : State} {idx : Half} (h : s.decRes = .ok) (hidx : idx.toNat < s.decL.toNat)
    (hsize : s.decOff.toNat + s.decL.toNat ≤ s.cfg.rxbufSize) :
    exec (.decRd idx) s = .next (answered .ok ((s.rxbuf.read (s.decOff.toNat + idx.toNat)).setWidth 32) s) := by
  have hread : readByte s.cfg.rxbufSize s.rxbuf (s.decOff.toNat + idx.toNat)
      = some (s.rxbuf.read (s.decOff.toNat + idx.toNat)) := readByte_eq_some.2 ⟨by omega, rfl⟩
  change execDecRd idx s = _
  rw [execDecRd, if_neg (not_not_intro h), if_neg (show ¬s.decL ≤ idx from Nat.not_le.2 hidx), hread, Option.map_some,
    orFault_some, answerOk_eq, zext8]

/-- Settles O26: `NO_DATA` is judged before `INDEX_RANGE`. -/
theorem decRdReadsThePayload : Obligations.DecRdReadsThePayload :=
  ⟨portLine_of_row (r := (0x31, 16, fun a => .decRd (a.setWidth 16))) (by simp [cmdRows]),
    fun idx _ => exec_decRd_of_not_ok idx, fun _ _ => exec_decRd_outside, fun _ _ => exec_decRd_payload⟩

/-- Settles O27: the row of R81 and what the operation does, which does not look at the state. -/
theorem decDropDiscardsTheFrame : Obligations.DecDropDiscardsTheFrame :=
  ⟨portLine_of_row (r := (0x32, 0, fun _ => .decDrop)) (by simp [cmdRows]),
    fun _ => congrArg Host.Outcome.next (answerOk_eq 0 _)⟩

/-! ### After an error -/

/-- What a byte leaves of the payload held before: nothing while an attempt goes on from a header, nothing after an error;
only `FRAME_OK` holds a payload, and the bytes inside an attempt leave the result as it is. -/
inductive ByteOutcome (s t : State) (r : Response) : Prop where
  | frameOk (hrsp : r.status = .frameOk)
  | pending (hrsp : r.status = .pending) (hres : s.decState = .hdr → t.decRes ≠ .ok)
  | error (hst : t.decState = .hdr) (hcnt : t.decCnt = 0) (hres : t.decRes ≠ .ok)

theorem decCheck_outcome {s t u : State} {r : Response} (h : decCheck u = some t) (hr : t.rsp = some r) :
    ByteOutcome s t r := by
  obtain ⟨-, rfl⟩ := decCheck_eq_some.1 h
  dsimp only at hr ⊢
  split_ifs at hr ⊢
  · cases hr
    exact .frameOk rfl
  · exact .error rfl rfl (by simp)

theorem takeByte_outcome {b : Byte} {s t : State} {r : Response} (h : takeByte b s = some t) (hr : t.rsp = some r) :
    ByteOutcome s t r := by
  have hlater (hst : s.decState ≠ .hdr) (hpending : t.rsp.map (·.status) = some .pending) : ByteOutcome s t r := by
    rw [hr] at hpending
    exact .pending (by simpa using hpending) fun hhdr => absurd hhdr hst
  cases hst : s.decState with
  | hdr =>
    rw [takeByte_hdr hst, decHeader_eq, Option.some.injEq] at h
    subst h
    split_ifs at hr ⊢
    · cases hr
      exact .pending rfl fun _ => by simp
    · cases hr
      exact .pending rfl fun _ => by simp
    · exact .error rfl rfl (by simp)
  | len =>
    rw [takeByte_shortLength hst, Option.some.injEq] at h
    subst h
    exact hlater (by simp [hst]) rfl
  | lenh =>
    rw [takeByte_longLengthHigh hst, Option.some.injEq] at h
    subst h
    exact hlater (by simp [hst]) rfl
  | lenl =>
    rw [takeByte_longLengthLow hst, Option.some.injEq] at h
    subst h
    exact hlater (by simp [hst]) rfl
  | acc =>
    rw [takeByte_acc hst] at h
    obtain ⟨-, ⟨-, rfl⟩ | ⟨-, -, rfl⟩ | ⟨-, -, hcheck⟩⟩ := decAcc_eq_some.1 h
    · exact hlater (by simp [hst]) rfl
    · exact .error rfl rfl (by simp)
    · exact decCheck_outcome hcheck hr

/-- Settles O33: whatever the state, an error and a new header both leave a result other than OK. -/
theorem failedFrameLeavesNoPayload : Obligations.FailedFrameLeavesNoPayload := by
  intro b s t r hexec hr hstatus
  obtain hrsp | ⟨hrsp, hres⟩ | ⟨hst, hcnt, hres⟩ := takeByte_outcome (takeByte_of_exec_decByte hexec) hr
  · simp [hrsp] at hstatus
  · obtain ⟨hhdr, -⟩ : s.decState = .hdr ∧ r.status = .pending := by simpa [hrsp] using hstatus
    exact ⟨fun hne => absurd hrsp hne, fun idx => exec_decRd_of_not_ok idx (hres hhdr)⟩
  · exact ⟨fun _ => ⟨hst, hcnt⟩, fun idx => exec_decRd_of_not_ok idx hres⟩

end Sys2Proof.Proofs
end

section
/-! PROOFS. What a byte sequence is to the decoder (R88 to R93, R175): a header and length field, a payload, the checksum
and the last byte, or a sequence that ends before. `decode_frame` of each, and of a valid frame with one byte changed (R177,
R178). -/

namespace Sys2Proof.Proofs

open Sys2Proof Sys2Proof.Machine

/-! ### The parts of a frame -/

/-- The header and length bytes that announce a payload of `len` bytes, in the forms the decoder accepts (R88, R89, R91). -/
inductive IsHead (long : Bool) : List Byte → Nat → Prop where
  | short (l : Byte) : IsHead long [0x02#8, l] l.toNat
  | long (l1 l0 : Byte) (hlong : long = true) : IsHead long [0x03#8, l1, l0] (be16 l1 l0).toNat

theorem length_frameParts (head payload : List Byte) (c1 c0 last : Byte) :
    (head ++ payload ++ [c1, c0, last]).length = head.length + payload.length + 3 := by
  simp only [List.length_append, List.length_cons, List.length_nil]

/-- Without `LONG_DECODE` every frame is of the short form. -/
theorem IsHead.eq_short {head : List Byte} {len : Nat} (h : IsHead false head len) : ∃ l, head = [0x02#8, l] := by
  cases h with
  | short l => exact ⟨l, rfl⟩
  | long _ _ hlong => cases hlong

/-- Every byte sequence, as the decoder reads it from state HDR: what it lacks, or where its parts are. -/
inductive FrameShape (long : Bool) : List Byte → Prop where
  | empty : FrameShape long []
  | rejected (h : Byte) (rest : List Byte) (hshort : h ≠ 0x02#8) (hnot : ¬(h = 0x03#8 ∧ long = true)) :
    FrameShape long (h :: rest)
  | shortHeader : FrameShape long [0x02#8]
  | longHeader (hlong : long = true) : FrameShape long [0x03#8]
  | longHeaderHigh (l1 : Byte) (hlong : long = true) : FrameShape long [0x03#8, l1]
  | cut (head body : List Byte) (len : Nat) (hhead : IsHead long head len) (hcut : body.length < len + 3) :
    FrameShape long (head ++ body)
  | whole (head payload : List Byte) (c1 c0 last : Byte) (rest : List Byte) (hhead : IsHead long head payload.length) :
    FrameShape long (head ++ payload ++ [c1, c0, last] ++ rest)

/-- A header with its length field is followed by a whole frame or by too few bytes. -/
theorem frameShape_of_head {long : Bool} {head : List Byte} {len : Nat} (hhead : IsHead long head len) (body : List Byte) :
    FrameShape long (head ++ body) := by
  by_cases hcut : body.length < len + 3
  · exact .cut head body len hhead hcut
  · obtain ⟨payload, tail, rfl, rfl⟩ : ∃ payload tail, body = payload ++ tail ∧ payload.length = len :=
      ⟨body.take len, body.drop len, (List.take_append_drop len body).symm, List.length_take_of_le (by omega)⟩
    rw [List.length_append] at hcut
    match tail, hcut with
    | c1 :: c0 :: last :: rest, _ => simpa using FrameShape.whole head payload c1 c0 last rest hhead
    | [], hcut | [_], hcut | [_, _], hcut => simp at hcut

theorem frameShape (long : Bool) (f : List Byte) : FrameShape long f := by
  cases f with
  | nil => exact .empty
  | cons h t =>
    by_cases hshort : h = 0x02#8
    · subst hshort
      match t with
      | [] => exact .shortHeader
      | l :: body => exact frameShape_of_head (.short l) body
    · by_cases hlong : h = 0x03#8 ∧ long = true
      · obtain ⟨rfl, hlong⟩ := hlong
        match t with
        | [] => exact .longHeader hlong
        | [l1] => exact .longHeaderHigh l1 hlong
        | l1 :: l0 :: body => exact frameShape_of_head (.long l1 l0 hlong) body
      · exact .rejected h t hshort hlong

/-! ### `decode_frame` of each (R175) -/

theorem decodeFrame_rejected {long : Bool} {h : Byte} (rest : List Byte) (hshort : h ≠ 0x02#8)
    (hlong : ¬(h = 0x03#8 ∧ long = true)) : decodeFrame long (h :: rest) = .unsupportedHeader h rest :=
  (if_neg hshort).trans (if_neg hlong)

theorem decodeFrame_of_head {long : Bool} {head : List Byte} {len : Nat} (hhead : IsHead long head len)
    (body : List Byte) : decodeFrame long (head ++ body) = judgeFrame head.length len (head ++ body) := by
  cases hhead with
  | short l => rfl
  | long l1 l0 hlong =>
    subst hlong
    rfl

theorem decodeFrame_cut {long : Bool} {head body : List Byte} {len : Nat} (hhead : IsHead long head len)
    (hcut : body.length < len + 3) : decodeFrame long (head ++ body) = .pending := by
  rw [decodeFrame_of_head hhead, judgeFrame]
  exact if_pos (by rw [List.length_append]; omega)

theorem decodeFrame_long_cut (f : List Byte) (hlen : f.length ≤ 1) : decodeFrame true (0x03#8 :: f) = .pending := by
  match f with
  | [] => rfl
  | [_] => rfl

/-- The judgement of a whole frame: the terminator, then the checksum (R160, R259). -/
theorem decodeFrame_whole {long : Bool} {head payload : List Byte} (c1 c0 last : Byte) (rest : List Byte)
    (hhead : IsHead long head payload.length) :
    decodeFrame long (head ++ payload ++ [c1, c0, last] ++ rest)
      = if last ≠ 0x03#8 then .badTerminator last rest
        else if crc16 payload ≠ be16 c1 c0 then .checksumMismatch (crc16 payload) (be16 c1 c0) rest
        else .frameOk payload rest := by
  have hhigh : (head ++ payload ++ [c1, c0, last] ++ rest).getD (head.length + payload.length) 0 = c1 := by
    simp [List.getD_eq_getElem?_getD]
  have hlow : (head ++ payload ++ [c1, c0, last] ++ rest).getD (head.length + payload.length + 1) 0 = c0 := by
    simp [List.getD_eq_getElem?_getD, Nat.add_assoc]
  have hlast : (head ++ payload ++ [c1, c0, last] ++ rest).getD (payload.length + head.length + 3 - 1) 0 = last := by
    rw [Nat.add_comm payload.length]
    simp [List.getD_eq_getElem?_getD, Nat.add_assoc]
  have hpayload : ((head ++ payload ++ [c1, c0, last] ++ rest).drop head.length).take payload.length = payload := by
    simp
  have hrest : (head ++ payload ++ [c1, c0, last] ++ rest).drop (payload.length + head.length + 3) = rest :=
    List.drop_left' (by rw [length_frameParts, Nat.add_comm payload.length])
  have hlen : ¬(head ++ payload ++ [c1, c0, last] ++ rest).length < payload.length + head.length + 3 := by
    rw [List.length_append, length_frameParts]
    omega
  have hhead' := decodeFrame_of_head hhead (payload ++ [c1, c0, last] ++ rest)
  rw [← List.append_assoc, ← List.append_assoc] at hhead'
  rw [hhead', judgeFrame, if_neg hlen]
  simp only [hhigh, hlow, hlast, hpayload, hrest]

/-- The valid frames: the last byte is the terminator and the checksum is that of the payload. -/
theorem decodeFrame_eq_frameOk {long : Bool} {f payload rest : List Byte} :
    decodeFrame long f = .frameOk payload rest ↔
      ∃ head c1 c0, IsHead long head payload.length ∧ f = head ++ payload ++ [c1, c0, 0x03#8] ++ rest
        ∧ crc16 payload = be16 c1 c0 := by
  constructor
  · intro h
    obtain _ | ⟨b, _, hshort, hlong⟩ | _ | hlong | ⟨l1, hlong⟩ | ⟨head, body, len, hhead, hcut⟩
      | ⟨head, p, c1, c0, last, rest', hhead⟩ := frameShape long f
    · cases h
    · cases (decodeFrame_rejected _ hshort hlong).symm.trans h
    · cases h
    · subst hlong
      cases h
    · subst hlong
      cases h
    · cases (decodeFrame_cut hhead hcut).symm.trans h
    · rw [decodeFrame_whole c1 c0 last rest' hhead] at h
      split_ifs at h with hlast hcrc
      rw [FrameResult.frameOk.injEq] at h
      obtain ⟨rfl, rfl⟩ := h
      exact ⟨head, c1, c0, hhead, by rw [not_not.1 hlast], not_not.1 hcrc⟩
  · rintro ⟨head, c1, c0, hhead, rfl, hcrc⟩
    rw [decodeFrame_whole c1 c0 0x03#8 rest hhead, if_neg (not_not_intro rfl), if_neg (not_not_intro hcrc)]

/-! ### A valid frame with one byte changed (R177, R178) -/

theorem xor_bit_ne {k : Nat} (b : Byte) (hk : k < 8) : b ^^^ (1#8 <<< k) ≠ b := by
  intro h
  have hbit := congrArg (BitVec.getLsbD · k) h
  simp [hk] at hbit

theorem decodeFrame_mismatch {long : Bool} {head payload : List Byte} {c1 c0 : Byte}
    (hhead : IsHead long head payload.length) (hcrc : crc16 payload ≠ be16 c1 c0) :
    decodeFrame long (head ++ payload ++ [c1, c0, 0x03#8]) = .checksumMismatch (crc16 payload) (be16 c1 c0) [] := by
  have hwhole := decodeFrame_whole c1 c0 0x03#8 [] hhead
  rwa [List.append_nil, if_neg (not_not_intro rfl), if_pos hcrc] at hwhole

theorem decodeFrame_wrongTerm {long : Bool} {head payload : List Byte} (c1 c0 : Byte) {v : Byte}
    (hhead : IsHead long head payload.length) (hv : v ≠ 0x03#8) :
    decodeFrame long (head ++ payload ++ [c1, c0, v]) = .badTerminator v [] := by
  have hwhole := decodeFrame_whole c1 c0 v [] hhead
  rwa [List.append_nil, if_pos hv] at hwhole

/-- Other checksum bytes are another checksum. -/
theorem be16_injective {b1 b0 d1 d0 : Byte} (h : be16 b1 b0 = be16 d1 d0) : b1 = d1 ∧ b0 = d0 :=
  Prod.ext_iff.1 (append_bijective.injective (a₁ := (b1, b0)) (a₂ := (d1, d0)) h)

/-- Settles O32: the last byte is replaced in the frame's last part, and judged first. -/
theorem corruptTerminatorIsBadTerminator : Obligations.CorruptTerminatorIsBadTerminator := by
  intro long f payload v hok hv
  obtain ⟨head, c1, c0, hhead, rfl, -⟩ := decodeFrame_eq_frameOk.1 hok
  have hset : (head ++ payload ++ [c1, c0, 0x03#8] ++ []).set ((head ++ payload ++ [c1, c0, 0x03#8] ++ []).length - 1) v
      = head ++ payload ++ [c1, c0, v] := by
    simp
  rw [hset]
  exact decodeFrame_wrongTerm c1 c0 hhead hv

/-- A flipped payload bit, by the checksum's view of it (R123 item 5). -/
theorem crc16_set_bit_ne {p : List Byte} {i k : Nat} (hi : i < p.length) (hk : k < 8) :
    crc16 (p.set i (p[i] ^^^ (1#8 <<< k))) ≠ crc16 p := by
  have hflip := crcSeesEverySingleBitChange (p.take i) (p.drop (i + 1)) p[i] k hk
  rwa [List.append_assoc, List.append_assoc, List.singleton_append, List.singleton_append,
    List.cons_getElem_drop_succ, List.take_append_drop, ← List.set_eq_take_cons_drop _ hi] at hflip

/-- Settles O31: a byte of the checksum, of the payload, or the header is replaced in its own part of the frame. -/
theorem singleBitFlipsAreDetected : Obligations.SingleBitFlipsAreDetected := by
  intro long f payload k j hj hk hok
  obtain ⟨head, c1, c0, hhead, hf, hcrc⟩ := decodeFrame_eq_frameOk.1 hok
  rw [List.append_nil] at hf
  subst hf
  rw [length_frameParts]
  refine ⟨fun hchecksum => ?_, fun hfrom hbelow => ?_, ?_⟩
  · suffices h : ∃ d1 d0, be16 d1 d0 ≠ be16 c1 c0
        ∧ (head ++ payload ++ [c1, c0, 0x03#8]).set j ((head ++ payload ++ [c1, c0, 0x03#8])[j] ^^^ (1#8 <<< k))
          = head ++ payload ++ [d1, d0, 0x03#8] by
      obtain ⟨d1, d0, hne, hset⟩ := h
      rw [← hcrc] at hne
      exact ⟨be16 d1 d0, hne, hset ▸ decodeFrame_mismatch hhead hne.symm⟩
    obtain hhigh | hlow := hchecksum
    · obtain rfl : j = head.length + payload.length := by omega
      exact ⟨c1 ^^^ (1#8 <<< k), c0, fun h => xor_bit_ne c1 hk (be16_injective h).1, by simp⟩
    · obtain rfl : j = head.length + payload.length + 1 := by omega
      exact ⟨c1, c0 ^^^ (1#8 <<< k), fun h => xor_bit_ne c0 hk (be16_injective h).2, by simp [Nat.add_assoc]⟩
  · obtain ⟨i, rfl⟩ : ∃ i, j = head.length + i := ⟨j - head.length, by omega⟩
    have hi : i < payload.length := by omega
    have hget : (head ++ payload ++ [c1, c0, 0x03#8])[head.length + i] = payload[i] := by simp [hi]
    have hset (v : Byte) : (head ++ payload ++ [c1, c0, 0x03#8]).set (head.length + i) v
        = head ++ payload.set i v ++ [c1, c0, 0x03#8] := by simp [hi]
    have hne := crc16_set_bit_ne hi hk
    have hlen : (payload.set i (payload[i] ^^^ (1#8 <<< k))).length = payload.length := List.length_set
    rw [hget, hset, hcrc]
    rw [hcrc] at hne
    exact ⟨_, hne, decodeFrame_mismatch (hlen ▸ hhead) hne⟩
  · rintro rfl rfl
    obtain ⟨l, rfl⟩ := hhead.eq_short
    exact decodeFrame_rejected _ (xor_bit_ne 0x02#8 hk) (by simp)

end Sys2Proof.Proofs
end

section
/-! PROOFS. Feeding a byte sequence to the decoder (R175, R176): an attempt in progress holds the bytes it was fed, the last
byte of a frame is judged as `decode_frame` judges it, and a frame that `encode` made gives its payload back. -/

namespace Sys2Proof.Proofs

open Sys2Proof Sys2Proof.Machine
open Sys2Proof.Spec (answered pendings rxStoredAt)

/-! ### Slices of a buffer -/

/-- A slice that spells two sequences one after the other is a slice for each. -/
theorem slice_append_eq {m : Memory} {a : Nat} {p q : List Byte} (h : m.slice a (p ++ q).length = p ++ q) :
    m.slice a p.length = p ∧ m.slice (a + p.length) q.length = q := by
  have hsplit : m.slice a (p ++ q).length = m.slice a p.length ++ m.slice (a + p.length) q.length := by
    simp [Memory.slice, List.range_add, Nat.add_assoc]
  rw [hsplit] at h
  exact List.append_inj h (Memory.length_slice _ _ _)

/-! ### An attempt in progress -/

theorem pendings_succ (n : Nat) : pendings (n + 1) = pendings n ++ [⟨.pending, BitVec.ofNat 32 (n + 1)⟩] := by
  simp [pendings, List.range_succ]

/-- Feeding `g` from `s` leaves the attempt of `t` in progress: every byte was answered `PENDING` and stands in `RXBUF`. -/
structure Taken (s : State) (g : List Byte) (t : State) : Prop where
  run : execAll (decFeedOps g) s = some (t, pendings g.length)
  inv : Inv t
  cfg : t.cfg = s.cfg
  count : t.decCnt.toNat = g.length
  stored : t.rxbuf.slice 0 g.length = g

theorem taken_nil {s : State} (hinv : Inv s) (hst : s.decState = .hdr) : Taken s [] s where
  run := rfl
  inv := hinv
  cfg := rfl
  count := by rw [hinv.decCounts.1 hst]; rfl
  stored := rfl

section Taken

variable {s t u : State} {g : List Byte} {b : Byte}

/-- One byte more, whatever it is answered. -/
theorem Taken.run_snoc {r : Response} (h : Taken s g t) (htake : takeByte b t = some u) (hr : u.rsp = some r) :
    execAll (decFeedOps (g ++ [b])) s = some (u, pendings g.length ++ [r]) := by
  rw [decFeedOps, List.map_append, execAll_append, ← decFeedOps, h.run, Option.bind_some, List.map_singleton,
    execAll_cons_of_next (exec_decByte_of_takeByte htake) hr]
  rfl

/-- One byte more that is stored behind the others and answered `PENDING`. -/
theorem Taken.snoc (h : Taken s g t) (htake : takeByte b t = some u) (hat : rxStoredAt b t = some g.length)
    (hr : u.rsp = some ⟨.pending, BitVec.ofNat 32 (g.length + 1)⟩) (hcnt : u.decCnt.toNat = g.length + 1) :
    Taken s (g ++ [b]) u where
  run := by
    rw [List.length_append, List.length_singleton, pendings_succ]
    exact h.run_snoc htake hr
  inv := inv_takeByte h.inv htake
  cfg := (takeByte_frame htake).1.cfg.trans h.cfg
  count := by rw [hcnt, List.length_append, List.length_singleton]
  stored := by
    obtain ⟨hwf, -⟩ := h.inv.buffersCanonical
    have hend := Memory.slice_write_end 0 g.length b hwf
    rw [Nat.zero_add, h.stored] at hend
    rw [List.length_append, List.length_singleton, takeByte_rxbuf htake, hat, Option.elim_some, hend]

end Taken

/-- Every frame the geometry registers can describe fits the buffer (R13, R61). -/
theorem frameTotal_le_rxbufSize {s : State} (h : Inv s) : frameTotal s ≤ s.cfg.rxbufSize := by
  obtain ⟨hoff, hshort, -⟩ := h.geometry
  have hL := s.decL.isLt
  have hsize := rxbufSize_ge s.cfg
  rw [frameTotal]
  obtain hoff | hoff := hoff
  · have hle := hshort hoff
    rw [hoff, show (2 : BitVec 2).toNat = 2 from rfl]
    omega
  · rw [Config.rxbufSize, if_pos (h.longOnlyWhenConfigured (.inr (.inr hoff))), hoff,
      show (3 : BitVec 2).toNat = 3 from rfl]
    omega

/-! ### The header and the length field -/

section Head

variable {s : State} (hinv : Inv s) (hst : s.decState = .hdr)
include hinv hst

theorem exists_taken_shortHeader : ∃ t, Taken s [0x02#8] t ∧ t.decState = .len := by
  have htake := takeByte_hdrShort hst
  exact ⟨_, (taken_nil hinv hst).snoc htake (by simp [rxStoredAt, hst]) rfl rfl, rfl⟩

theorem exists_taken_longHeader (hlong : s.cfg.longDecode = true) :
    ∃ t, Taken s [0x03#8] t ∧ t.decState = .lenh := by
  have htake := takeByte_hdrLong hst hlong
  exact ⟨_, (taken_nil hinv hst).snoc htake (by simp [rxStoredAt, hst, hlong]) rfl rfl, rfl⟩

theorem exists_taken_longHeaderHigh (hlong : s.cfg.longDecode = true) (l1 : Byte) :
    ∃ t, Taken s [0x03#8, l1] t ∧ t.decState = .lenl ∧ t.decL.toNat = l1.toNat * 256 := by
  obtain ⟨t, ht, hlenh⟩ := exists_taken_longHeader hinv hst hlong
  refine ⟨_, ht.snoc (takeByte_longLengthHigh hlenh) (by simp [rxStoredAt, hlenh]) rfl rfl, rfl, ?_⟩
  exact BitVec.toNat_ofNat _ _ |>.trans (Nat.mod_eq_of_lt (by omega))

end Head

/-- An attempt whose length field is taken: `DEC_L` payload bytes are to come, and the checksum and the terminator. -/
structure InFrame (s : State) (g : List Byte) (off len : Nat) (t : State) : Prop extends Taken s g t where
  acc : t.decState = .acc
  decOff : t.decOff.toNat = off
  decL : t.decL.toNat = len

theorem exists_inFrame_of_head {s : State} {head : List Byte} {len : Nat} (hinv : Inv s) (hst : s.decState = .hdr)
    (hhead : IsHead s.cfg.longDecode head len) : ∃ t, InFrame s head head.length len t := by
  cases hhead with
  | short l =>
    obtain ⟨t, ht, hlen⟩ := exists_taken_shortHeader hinv hst
    obtain ⟨-, -, hoff, -⟩ := ht.inv.geometry
    have hu := ht.snoc (takeByte_shortLength (b := l) hlen) (by simp [rxStoredAt, hlen]) rfl rfl
    exact ⟨_, hu, rfl, congrArg BitVec.toNat (hoff hlen).1, BitVec.toNat_setWidth_of_le (by decide)⟩
  | long l1 l0 hlong =>
    obtain ⟨t, ht, hlenl, hhigh⟩ := exists_taken_longHeaderHigh hinv hst hlong l1
    obtain ⟨-, -, -, -, hoff, -⟩ := ht.inv.geometry
    have hu := ht.snoc (takeByte_longLengthLow (b := l0) hlenl) (by simp [rxStoredAt, hlenl]) rfl rfl
    refine ⟨_, hu, rfl, congrArg BitVec.toNat (hoff hlenl).1, ?_⟩
    rw [toNat_be16]
    show (t.decL + l0.setWidth 16).toNat = _
    bv_omega

/-! ### The payload and the checksum -/

section InFrame

variable {s t : State} {g : List Byte} {off len : Nat}

theorem InFrame.frameTotal_eq (h : InFrame s g off len t) : frameTotal t = len + off + 3 := by
  rw [frameTotal, h.decL, h.decOff]

/-- Any bytes that do not complete the frame. -/
theorem InFrame.exists_append (h : InFrame s g off len t) (m : List Byte) (hmore : g.length + m.length < len + off + 3) :
    ∃ u, InFrame s (g ++ m) off len u := by
  induction m generalizing g t with
  | nil => exact ⟨t, by rwa [List.append_nil]⟩
  | cons b m ih =>
    rw [List.length_cons] at hmore
    have htotal := h.frameTotal_eq
    have hsize := frameTotal_le_rxbufSize h.inv
    have hcnt := h.count
    have htake := takeByte_more (b := b) h.acc hsize (by omega)
    have hlen := h.decL ▸ t.decL.isLt
    have hoff := h.decOff ▸ t.decOff.isLt
    have hnext : (t.decCnt + 1).toNat = g.length + 1 := by bv_omega
    have hu := h.snoc htake (by simp [rxStoredAt, h.acc, hcnt]) (by rw [← hcnt]; rfl) hnext
    have hrest := ih ⟨hu, h.acc, h.decOff, h.decL⟩ (by rw [List.length_append, List.length_singleton]; omega)
    rwa [List.append_assoc] at hrest

end InFrame

/-- At the last byte of a frame `RXBUF` holds the payload and the received checksum where the check looks for them. -/
structure AtLast (s : State) (head payload : List Byte) (c1 c0 : Byte) (t : State) : Prop
    extends Taken s (head ++ payload ++ [c1, c0]) t where
  acc : t.decState = .acc
  complete : t.decCnt.toNat + 1 = frameTotal t
  decL : t.decL.toNat = payload.length
  payload : t.rxbuf.slice t.decOff.toNat t.decL.toNat = payload
  recv : be16 (t.rxbuf.read (t.decOff.toNat + t.decL.toNat)) (t.rxbuf.read (t.decOff.toNat + t.decL.toNat + 1))
    = be16 c1 c0

theorem exists_atLast {s : State} {head payload : List Byte} (c1 c0 : Byte) (hinv : Inv s) (hst : s.decState = .hdr)
    (hhead : IsHead s.cfg.longDecode head payload.length) : ∃ t, AtLast s head payload c1 c0 t := by
  obtain ⟨t0, ht0⟩ := exists_inFrame_of_head hinv hst hhead
  have hmore : head.length + (payload ++ [c1, c0]).length < payload.length + head.length + 3 := by
    simp only [List.length_append, List.length_cons, List.length_nil]
    omega
  obtain ⟨t, ht⟩ := ht0.exists_append (payload ++ [c1, c0]) hmore
  rw [← List.append_assoc] at ht
  obtain ⟨hparts, hrecv⟩ := slice_append_eq ht.stored
  obtain ⟨-, hpayload⟩ := slice_append_eq hparts
  have hcnt := ht.count
  simp only [List.length_append, List.length_cons, List.length_nil] at hcnt
  rw [List.length_append, Nat.zero_add] at hrecv
  obtain ⟨hhigh, hlow⟩ := List.cons.inj hrecv
  refine ⟨t, ht.toTaken, ht.acc, by rw [ht.frameTotal_eq]; omega, ht.decL, ?_, ?_⟩
  · rw [ht.decOff, ht.decL]
    rwa [Nat.zero_add] at hpayload
  · rw [ht.decOff, ht.decL]
    exact congrArg₂ be16 hhigh (List.cons.inj hlow).1

/-! ### `decode_frame` (R175) -/

/-- The byte that ends the feed, behind bytes that were all `PENDING`. -/
theorem Taken.run_last {s t u : State} {g : List Byte} {b : Byte} {r : Response} (h : Taken s g t)
    (htake : takeByte b t = some u) (hr : u.rsp = some r) :
    execAll (decFeedOps (g ++ [b])) s = some (u, pendings ((g ++ [b]).length - 1) ++ [r]) := by
  rw [List.length_append, List.length_singleton, Nat.add_sub_cancel]
  exact h.run_snoc htake hr

/-- Settles O29: one case per shape of the sequence; a whole frame is fed up to its last byte, which decides. -/
theorem feedingBytesIsDecodeFrame : Obligations.FeedingBytesIsDecodeFrame := by
  intro s f hinv hst
  obtain _ | ⟨b, rest, hshort, hnot⟩ | _ | hlong | ⟨l1, hlong⟩ | ⟨head, body, len, hhead, hcut⟩
    | ⟨head, payload, c1, c0, last, rest, hhead⟩ := frameShape s.cfg.longDecode f
  · exact ⟨rfl, rfl⟩
  · rw [decodeFrame_rejected rest hshort hnot]
    exact ⟨rfl, _, (taken_nil hinv hst).run_snoc (takeByte_unsupported hst hshort hnot) rfl, hst, rfl⟩
  · obtain ⟨t, ht, hlen⟩ := exists_taken_shortHeader hinv hst
    exact ⟨t, ht.run, by simp [hlen], ht.count⟩
  · obtain ⟨t, ht, hlenh⟩ := exists_taken_longHeader hinv hst hlong
    rw [hlong, decodeFrame_long_cut [] (by simp)]
    exact ⟨t, ht.run, by simp [hlenh], ht.count⟩
  · obtain ⟨t, ht, hlenl, -⟩ := exists_taken_longHeaderHigh hinv hst hlong l1
    rw [hlong, decodeFrame_long_cut [l1] (by simp)]
    exact ⟨t, ht.run, by simp [hlenl], ht.count⟩
  · obtain ⟨t0, ht0⟩ := exists_inFrame_of_head hinv hst hhead
    obtain ⟨t, ht⟩ := ht0.exists_append body (by omega)
    rw [decodeFrame_cut hhead hcut]
    exact ⟨t, ht.run, by simp [ht.acc], ht.count⟩
  · obtain ⟨t, ht⟩ := exists_atLast c1 c0 hinv hst hhead
    have hsize := frameTotal_le_rxbufSize ht.inv
    have hsplit : head ++ payload ++ [c1, c0, last] ++ rest = head ++ payload ++ [c1, c0] ++ [last] ++ rest := by simp
    rw [decodeFrame_whole c1 c0 last rest hhead]
    split_ifs with hlast hcrc
    · exact ⟨_, _, hsplit, ht.run_last (takeByte_wrongTerm ht.acc hsize ht.complete hlast) rfl, rfl, rfl⟩
    · obtain rfl := not_not.1 hlast
      have htake := takeByte_term_mismatch ht.acc hsize ht.complete ht.recv (by rwa [ht.payload])
      rw [ht.payload] at htake
      exact ⟨_, _, hsplit, ht.run_last htake rfl, rfl, rfl, rfl, rfl⟩
    · obtain rfl := not_not.1 hlast
      have htake := takeByte_term ht.acc hsize ht.complete ht.recv (by rw [ht.payload, not_not.1 hcrc])
      have hdata : t.decL.setWidth 32 = BitVec.ofNat 32 payload.length := by
        rw [← ht.decL, BitVec.ofNat_toNat]
      have hheld : (t.rxbuf.write t.decCnt.toNat 0x03#8).slice t.decOff.toNat t.decL.toNat = payload := by
        have hbehind := ht.complete
        rw [frameTotal] at hbehind
        rw [Memory.slice_write_outside _ (.inr (by omega)), ht.payload]
      rw [hdata] at htake
      exact ⟨_, _, hsplit, ht.run_last htake rfl, rfl, rfl, ht.decL, hheld⟩

/-! ### Frames of `encode` (R176) -/

theorem inv_execAll {is : List Instr} {s t : State} {rs : List Response} (hinv : Inv s) (h : execAll is s = some (t, rs)) :
    Inv t := by
  induction is generalizing s rs with
  | nil =>
    cases h
    exact hinv
  | cons i is ih =>
    rw [execAll] at h
    split at h
    · next u hexec =>
      obtain ⟨⟨_, _⟩, hrest, hend⟩ := Option.map_eq_some_iff.1 h
      cases hend
      exact ih (inv_exec hinv hexec) hrest
    · cases h

/-- The header of `encode` is one the decoder takes, the long one only where it is configured (R88, R89). -/
theorem isHead_frameHead {long : Bool} {len : Half} (h : len.toNat ≤ 255 ∨ 257 ≤ len.toNat ∧ long = true) :
    IsHead long (frameHead len) len.toNat := by
  obtain hshort | ⟨hfrom, hlong⟩ := h
  · have hl : (len.setWidth 8).toNat = len.toNat := by
      rw [BitVec.toNat_setWidth]
      omega
    rw [frameHead_short (by omega)]
    exact hl ▸ IsHead.short (len.setWidth 8)
  · have hl : (be16 ((len >>> 8).setWidth 8) (len.setWidth 8)).toNat = len.toNat :=
      congrArg BitVec.toNat (bytes_append len)
    rw [frameHead_long (by omega)]
    exact hl ▸ IsHead.long ((len >>> 8).setWidth 8) (len.setWidth 8) hlong

theorem decodeFrame_encodeFrame {long : Bool} {p f : List Byte} (hf : encodeFrame p = some f)
    (hlong : 257 ≤ p.length → long = true) : decodeFrame long f = .frameOk p [] := by
  obtain ⟨hrefused, hmax, rfl⟩ := encodeFrame_eq_some.1 hf
  have hlen : (BitVec.ofNat 16 p.length).toNat = p.length := toNat_lengthOperand hmax
  have hform : p.length ≤ 255 ∨ 257 ≤ p.length ∧ long = true := by
    by_cases hshort : p.length ≤ 255
    · exact .inl hshort
    · exact .inr ⟨by omega, hlong (by omega)⟩
  rw [← hlen] at hform
  have hhead := isHead_frameHead hform
  rw [hlen] at hhead
  refine decodeFrame_eq_frameOk.2 ⟨_, _, _, hhead, ?_, (bytes_append (crc16 p)).symm⟩
  rw [List.append_nil, frameTail_eq]
  rfl

/-- Settles O30: `decode_frame` of the frame is the payload, and the decoder's feed is `decode_frame`; of the long form
without `LONG_DECODE` the first byte is rejected. -/
theorem encodeThenDecodeRoundTrips : Obligations.EncodeThenDecodeRoundTrips := by
  constructor
  · intro s p hinv hst hlen
    obtain ⟨f, hf⟩ : ∃ f, encodeFrame p = some f := ⟨_, encodeFrame_eq_some.2 ⟨by omega, by omega, rfl⟩⟩
    have hlong : 257 ≤ p.length → s.cfg.longDecode = true := fun hfrom => by
      obtain hshort | ⟨-, -, hlong⟩ := hlen
      · omega
      · exact hlong
    have hfeed := feedingBytesIsDecodeFrame s f hinv hst
    rw [decodeFrame_encodeFrame hf hlong] at hfeed
    obtain ⟨g, t, hg, hrun, -, hok, hL, hheld⟩ := hfeed
    rw [hg, List.append_nil] at hf
    refine ⟨g, t, hf, hrun, fun i hi => ?_⟩
    have hidx : (BitVec.ofNat 16 i).toNat = i := BitVec.toNat_ofNat _ _ |>.trans (Nat.mod_eq_of_lt (by omega))
    have hsize := frameTotal_le_rxbufSize (inv_execAll hinv hrun)
    have hbyte : t.rxbuf.read (t.decOff.toNat + i) = p[i] := by
      rw [← Memory.getElem_slice _ _ t.decL.toNat i (by rwa [Memory.length_slice, hL])]
      exact List.getElem_of_eq hheld _
    rw [frameTotal] at hsize
    rw [exec_decRd_payload hok (by rwa [hidx, hL]) (by omega), hidx, hbyte]
  · intro s p hst hfrom hmax hlong
    have hn : (BitVec.ofNat 16 p.length).toNat = p.length := toNat_lengthOperand hmax
    rw [encodeFrame_eq_some.2 ⟨by omega, hmax, rfl⟩, frameHead_long (by omega)]
    exact ⟨_, _, rfl, exec_decByte_of_takeByte (takeByte_hdrLong_unsupported hst hlong), rfl, hst⟩

end Sys2Proof.Proofs
end

section
/-! PROOFS. The field schema (R190 to R195): its table slot by slot, the fields of a schema word, `SCH.RD` of a slot and of an
index beyond them, and the layout of a payload with every slot present. -/

namespace Sys2Proof.Proofs

open Sys2Proof Sys2Proof.Machine
open Sys2Proof.Spec (answered cmdRows logged widths)

/-! ### The table of R191 -/

/-- The ROM row by row: a slot of one byte is opaque, every other is signed. -/
theorem schema_getElem (i : Slot) : schema[i] = if widths[i] = 1 then opaque1 else ⟨widths[i], true, false⟩ := by
  revert i
  decide

theorem width_eq (i : Slot) : width i = widths[i] := by
  rw [width, schema_getElem]
  split_ifs with h
  · exact h.symm
  · rfl

theorem isOpaqueSlot_eq (i : Slot) : isOpaqueSlot i = decide (widths[i] = 1) := by
  rw [isOpaqueSlot, schema_getElem]
  split_ifs with h
  · exact (decide_eq_true h).symm
  · exact (decide_eq_false h).symm

theorem isSigned_eq_not_isOpaqueSlot (i : Slot) : isSigned i = !isOpaqueSlot i := by
  rw [isSigned, isOpaqueSlot, schema_getElem]
  split_ifs <;> rfl

theorem widths_eq_one_iff (i : Slot) : widths[i] = 1 ↔ i = 15 ∨ i = 17 := by
  revert i
  decide

theorem widths_lt (i : Slot) : widths[i] < 8 := by
  revert i
  decide

/-! ### The schema word (R195) -/

theorem toNat_append_eq {n k : Nat} (x : BitVec n) (y : BitVec k) : (x ++ y).toNat = x.toNat * 2 ^ k + y.toNat := by
  rw [BitVec.toNat_append, ← Nat.shiftLeft_add_eq_or_of_lt y.isLt, Nat.shiftLeft_eq]

/-- The weights of the fields of a schema word: width 1, signed 8, opaque 16, scale 256. -/
theorem toNat_schemaFields (scale : BitVec 24) (isOpaque signed : Bool) (w : BitVec 3) :
    (scale ++ 0#3 ++ BitVec.ofBool isOpaque ++ BitVec.ofBool signed ++ w).toNat
      = w.toNat + 8 * signed.toNat + 16 * isOpaque.toNat + 256 * scale.toNat := by
  simp only [toNat_append_eq, BitVec.toNat_ofBool, BitVec.toNat_zero]
  omega

/-- A scale that has more than 24 bits, which no allowed configuration has, loses the same bits on both sides. -/
theorem schemaWord_eq (c : Config) (i : Slot) :
    schemaWord c i
      = BitVec.ofNat 32 (if widths[i] = 1 then 1 + 16 else widths[i] + 8 + 256 * (c.scale[i]).getD 0) := by
  have hw := widths_lt i
  apply BitVec.eq_of_toNat_eq
  rw [schemaWord, toNat_schemaFields, width_eq, isSigned_eq_not_isOpaqueSlot, isOpaqueSlot_eq]
  by_cases h : widths[i] = 1
  · simp [h]
  · simp only [h, scaleOf, decide_false, Bool.not_false, Bool.toNat_true, Bool.toNat_false, if_false,
      Bool.false_eq_true, BitVec.toNat_ofNat]
    omega

/-! ### `SCH.RD` -/

/-- The operand of a slot names that slot (R83). -/
theorem slotOf_ofNat (i : Slot) : slotOf (BitVec.ofNat 5 i.val) = some i := by
  rw [slotOf_eq_some, BitVec.toNat_ofNat]
  exact Nat.mod_eq_of_lt (by omega)

/-- An operand from 23 up names no slot (R83). -/
theorem slotOf_eq_none {x : BitVec 5} (h : 23 ≤ x.toNat) : slotOf x = none :=
  dif_neg (Nat.not_lt.2 h)

theorem exec_schRd_slot (i : Slot) (s : State) :
    exec (.schRd (BitVec.ofNat 5 i.val)) s = .next (answered .ok (schemaWord s.cfg i) s) := by
  change execSchRd _ s = _
  rw [execSchRd, slotOf_ofNat, ← answerOk_eq]

theorem exec_schRd_beyond {x : BitVec 5} (s : State) (h : 23 ≤ x.toNat) :
    exec (.schRd x) s = .next (logged .indexRange 12 0 s) := by
  change execSchRd x s = _
  rw [execSchRd, slotOf_eq_none h]
  exact congrArg Host.Outcome.next (refuse_eq_logged .indexRange s)

/-- Settles O34: the row of R81, the schema word of a slot, and the range. Whether the configuration is allowed does not
matter to the answer. -/
theorem schRdReadsTheSchema : Obligations.SchRdReadsTheSchema := by
  refine ⟨portLine_of_row (r := (0x44, 5, fun a => .schRd (a.setWidth 5))) (by simp [cmdRows]), fun i s _ => ?_,
    fun _ s => exec_schRd_beyond s⟩
  rw [← schemaWord_eq]
  exact exec_schRd_slot i s

/-! ### The full layout (R192) -/

/-- The full mask selects every slot (R215). -/
theorem hasBit_fullMask (i : Slot) : hasBit fullMask i = true := by
  revert i
  decide

/-- With every slot present, the bytes before a slot are the widths of the slots below it. -/
theorem selectedBytes_fullMask (bound : Nat) :
    selectedBytes fullMask bound = ((allSlots.filter fun i => decide (i.val < bound)).map fun i => widths[i]).sum := by
  simp only [selectedBytes, hasBit_fullMask, Bool.true_and]
  rw [funext width_eq]

/-- Settles O35: the table of R191, and the sums of its widths. -/
theorem fullLayoutIsSeventyTwoBytes : Obligations.FullLayoutIsSeventyTwoBytes := by
  refine ⟨fun i => ⟨width_eq i, ?_, isSigned_eq_not_isOpaqueSlot i⟩, ?_, ?_⟩
  · rw [isOpaqueSlot_eq, decide_eq_true_iff, widths_eq_one_iff]
  · change (allSlots.map fun i => selectedBytes fullMask i.val) = _
    simp only [selectedBytes_fullMask]
    rfl
  · exact selectedBytes_fullMask 23

end Sys2Proof.Proofs
end

section
/-! PROOFS. The layout of a payload (R100, R201) and `unpack` as a whole (R202, R208, R209): with enough bytes every selected
slot gets the bytes at its offset, with fewer the walk ends at the first slot that does not fit. -/

namespace Sys2Proof.Proofs

open Sys2Proof Sys2Proof.Machine

/-! ### Offsets -/

theorem bytesOf_append (mask : Word) (pre post : List Slot) :
    bytesOf mask (pre ++ post) = bytesOf mask pre + bytesOf mask post := by
  simp [bytesOf]

theorem bytesOf_cons_of_present {mask : Word} {i : Slot} (h : hasBit mask i = true) (is : List Slot) :
    bytesOf mask (i :: is) = width i + bytesOf mask is := by
  simp [bytesOf, h]

theorem bytesOf_cons_of_absent {mask : Word} {i : Slot} (h : hasBit mask i = false) (is : List Slot) :
    bytesOf mask (i :: is) = bytesOf mask is := by
  simp [bytesOf, h]

theorem bytesOf_snoc_of_present {mask : Word} {i : Slot} (h : hasBit mask i = true) (is : List Slot) :
    bytesOf mask (is ++ [i]) = bytesOf mask is + width i := by
  simp [bytesOf, h]

theorem bytesOf_snoc_of_absent {mask : Word} {i : Slot} (h : hasBit mask i = false) (is : List Slot) :
    bytesOf mask (is ++ [i]) = bytesOf mask is := by
  simp [bytesOf, h]

theorem allSlots_sorted : allSlots.Pairwise (· < ·) := by decide

/-- The slots on either side of a place in the schema are those below and those above. -/
theorem lt_of_split {pre post : List Slot} {i : Slot} (hsplit : pre ++ i :: post = allSlots) :
    (∀ j ∈ pre, j < i) ∧ ∀ j ∈ post, i < j := by
  obtain ⟨-, hpost, hpre⟩ := List.pairwise_append.1 (hsplit ▸ allSlots_sorted)
  exact ⟨fun j hj => hpre j hj i List.mem_cons_self, (List.pairwise_cons.1 hpost).1⟩

theorem exists_split (i : Slot) : ∃ pre post, pre ++ i :: post = allSlots := by
  obtain ⟨pre, post, h⟩ := List.append_of_mem (mem_allSlots i)
  exact ⟨pre, post, h.symm⟩

/-- The offset of a slot is what the slots before it take (R100). -/
theorem offsetOf_of_split {pre post : List Slot} {i : Slot} (hsplit : pre ++ i :: post = allSlots) (mask : Word) :
    offsetOf i mask = bytesOf mask pre := by
  obtain ⟨hpre, hpost⟩ := lt_of_split hsplit
  have hbelow : pre.filter (fun j => hasBit mask j && decide (j.val < i.val)) = pre.filter fun j => hasBit mask j :=
    List.filter_congr fun j hj => by simp [Fin.lt_def.1 (hpre j hj)]
  have habove : (i :: post).filter (fun j => hasBit mask j && decide (j.val < i.val)) = [] := by
    refine List.filter_eq_nil_iff.2 fun j hj => ?_
    have hij : i ≤ j := (List.mem_cons.1 hj).elim (fun h => h.ge) fun h => (hpost j h).le
    simp [Nat.not_lt.2 (Fin.le_def.1 hij)]
  rw [offsetOf, selectedBytes, ← hsplit, List.filter_append, hbelow, habove, List.append_nil, bytesOf]

/-- The slots side by side: a present slot ends before any later offset, and within the bytes needed (R100). -/
theorem offsetOf_add_width_le_bytesOf {mask : Word} {j : Slot} (hbit : hasBit mask j = true) {pre post : List Slot}
    (hsplit : pre ++ post = allSlots) (hj : j ∈ pre) : offsetOf j mask + width j ≤ bytesOf mask pre := by
  obtain ⟨before, after, rfl⟩ := List.append_of_mem hj
  rw [offsetOf_of_split (post := after ++ post) (by simpa using hsplit), bytesOf_append, bytesOf_cons_of_present hbit]
  omega

theorem offsetOf_add_width_le_need {mask : Word} {i : Slot} (hbit : hasBit mask i = true) :
    offsetOf i mask + width i ≤ need mask :=
  need_eq_bytesOf mask ▸ offsetOf_add_width_le_bytesOf hbit (List.append_nil _) (mem_allSlots i)

theorem offsetOf_add_width_le_offsetOf {mask : Word} {i j : Slot} (hbit : hasBit mask j = true) (hji : j < i) :
    offsetOf j mask + width j ≤ offsetOf i mask := by
  obtain ⟨pre, post, hsplit⟩ := exists_split i
  have hj : j ∈ pre := by
    have hmem : j ∈ pre ++ i :: post := hsplit ▸ mem_allSlots j
    rcases List.mem_append.1 hmem with hj | hj
    · exact hj
    · have hij : i ≤ j := (List.mem_cons.1 hj).elim (fun h => h.ge) fun h => ((lt_of_split hsplit).2 j h).le
      exact absurd hji (not_lt.2 hij)
  exact offsetOf_of_split hsplit mask ▸ offsetOf_add_width_le_bytesOf hbit hsplit hj

/-- The bytes that the selected ones of the slots from a place on take, slot by slot (R201). -/
theorem flatMap_fieldSlices {mask : Word} (b : List Byte) {pre post : List Slot} (hsplit : pre ++ post = allSlots) :
    ((post.filter fun i => hasBit mask i).flatMap fun i => (b.drop (offsetOf i mask)).take (width i))
      = (b.drop (bytesOf mask pre)).take (bytesOf mask post) := by
  induction post generalizing pre with
  | nil => simp [bytesOf]
  | cons i post ih =>
    have hrest := ih (pre := pre ++ [i]) (by simpa using hsplit)
    cases hbit : hasBit mask i with
    | false =>
      rw [bytesOf_snoc_of_absent hbit] at hrest
      rw [List.filter_cons_of_neg (by simp [hbit]), hrest, bytesOf_cons_of_absent hbit]
    | true =>
      rw [bytesOf_snoc_of_present hbit] at hrest
      rw [List.filter_cons_of_pos hbit, List.flatMap_cons, hrest, bytesOf_cons_of_present hbit,
        offsetOf_of_split hsplit, List.take_add, List.drop_drop]

/-! ### The raw value of a field -/

/-- The three kinds of slots of R191. -/
theorem slot_kinds (i : Slot) :
    (isOpaqueSlot i = true ∧ width i = 1) ∨ (isOpaqueSlot i = false ∧ width i = 2)
      ∨ (isOpaqueSlot i = false ∧ width i = 4) := by
  revert i
  decide

theorem width_pos (i : Slot) : 0 < width i := by
  obtain ⟨-, h⟩ | ⟨-, h⟩ | ⟨-, h⟩ := slot_kinds i <;> omega

theorem width_le (i : Slot) : width i ≤ 4 := by
  obtain ⟨-, h⟩ | ⟨-, h⟩ | ⟨-, h⟩ := slot_kinds i <;> omega

section FieldRaw

variable {i : Slot}

theorem fieldRaw_opaque (hi : isOpaqueSlot i = true) (p : List Byte) (o : Nat) :
    fieldRaw i p o = zext8 (p.getD o 0) := by
  simp [fieldRaw, hi]

theorem fieldRaw_two (hi : isOpaqueSlot i = false) (hw : width i = 2) (p : List Byte) (o : Nat) :
    fieldRaw i p o = sext16 (be16 (p.getD o 0) (p.getD (o + 1) 0)) := by
  simp [fieldRaw, hi, hw]

theorem fieldRaw_four (hi : isOpaqueSlot i = false) (hw : width i = 4) (p : List Byte) (o : Nat) :
    fieldRaw i p o = be32 (p.getD o 0) (p.getD (o + 1) 0) (p.getD (o + 2) 0) (p.getD (o + 3) 0) := by
  simp [fieldRaw, hi, hw]

/-- A raw value depends on its field's bytes only. -/
theorem fieldRaw_congr {p q : List Byte} {o o' : Nat} (h : ∀ k < width i, p.getD (o + k) 0 = q.getD (o' + k) 0) :
    fieldRaw i p o = fieldRaw i q o' := by
  have hfirst : p.getD o 0 = q.getD o' 0 := h 0 (width_pos i)
  obtain ⟨hi, hw⟩ | ⟨hi, hw⟩ | ⟨hi, hw⟩ := slot_kinds i
  · rw [fieldRaw_opaque hi, fieldRaw_opaque hi, hfirst]
  · rw [fieldRaw_two hi hw, fieldRaw_two hi hw, hfirst, h 1 (by omega)]
  · rw [fieldRaw_four hi hw, fieldRaw_four hi hw, hfirst, h 1 (by omega), h 2 (by omega), h 3 (by omega)]

theorem fieldRaw_drop (p : List Byte) (o : Nat) : fieldRaw i (p.drop o) 0 = fieldRaw i p o :=
  fieldRaw_congr fun k _ => by simp [List.getD_eq_getElem?_getD]

theorem fieldRaw_append {p : List Byte} {o : Nat} (h : o + width i ≤ p.length) (extra : List Byte) :
    fieldRaw i (p ++ extra) o = fieldRaw i p o :=
  fieldRaw_congr fun k hk => List.getD_append _ _ _ _ (by omega)

end FieldRaw

/-! ### Walks -/

section Walk

variable {payload : List Byte} {mask : Word} {pre is : List Slot} {w w' : Walk}

/-- A walk that has come to its place in the schema and succeeds delivers every selected slot from its offset (R201). -/
theorem walkSlots_raw (h : walkSlots payload mask is w = .ok w') (hsplit : pre ++ is = allSlots)
    (hoff : w.off = bytesOf mask pre) (j : Slot) :
    w'.raw[j] = if hasBit mask j = true ∧ j ∈ is then fieldRaw j payload (offsetOf j mask) else w.raw[j] := by
  induction is generalizing pre w with
  | nil => cases h; simp
  | cons i is ih =>
    obtain ⟨u, hu, hrest⟩ := walkSlots_cons_eq_ok.1 h
    have hsplit' : pre ++ [i] ++ is = allSlots := by simpa using hsplit
    obtain ⟨hbit, rfl⟩ | ⟨hbit, -, rfl⟩ := walkSlot_eq_ok.1 hu
    · rw [ih hrest hsplit' (by rw [bytesOf_snoc_of_absent hbit, hoff])]
      by_cases hji : j = i
      · simp [hji, hbit]
      · simp [hji]
    · rw [ih hrest hsplit' (by rw [bytesOf_snoc_of_present hbit, hoff]),
        getElem_set_slot]
      by_cases hji : j = i
      · simp [hji, hbit, hoff, offsetOf_of_split hsplit]
      · simp [hji]

/-- A walk that has come to its place in the schema within the payload and fails stops at a selected slot that the bytes from
its offset on do not fill (R208). -/
theorem walkSlots_stops {i : Slot} {remaining : Nat} (h : walkSlots payload mask is w = .error (i, remaining))
    (hsplit : pre ++ is = allSlots) (hoff : w.off = bytesOf mask pre) (hle : w.off ≤ payload.length) :
    hasBit mask i = true ∧ offsetOf i mask ≤ payload.length ∧ payload.length < offsetOf i mask + width i
      ∧ remaining = payload.length - offsetOf i mask := by
  induction is generalizing pre w with
  | nil => cases h
  | cons j is ih =>
    have hsplit' : pre ++ [j] ++ is = allSlots := by simpa using hsplit
    rw [walkSlots] at h
    cases hturn : walkSlot payload mask j w with
    | error e =>
      rw [hturn] at h
      cases h
      obtain ⟨hbit, hroom, he⟩ := walkSlot_eq_error.1 hturn
      obtain ⟨rfl, rfl⟩ := Prod.mk.inj he
      rw [offsetOf_of_split hsplit, ← hoff]
      exact ⟨hbit, hle, by omega, rfl⟩
    | ok u =>
      rw [hturn] at h
      obtain ⟨hbit, rfl⟩ | ⟨hbit, hroom, rfl⟩ := walkSlot_eq_ok.1 hturn
      · exact ih h hsplit' (by rw [bytesOf_snoc_of_absent hbit, hoff]) hle
      · exact ih h hsplit' (by rw [bytesOf_snoc_of_present hbit, hoff])
          (by dsimp only; omega)

end Walk

/-! ### `unpack` -/

/-- The raw values of the record that the layout describes: a selected slot's from its offset, 0 in every other (R201,
R206). -/
def layoutRaw (payload : List Byte) (mask : Word) : Vector Word 23 :=
  Vector.ofFn fun i : Slot => if hasBit mask i = true then fieldRaw i payload (offsetOf i mask) else 0

theorem getElem_layoutRaw (payload : List Byte) (mask : Word) (i : Slot) :
    (layoutRaw payload mask)[i] = if hasBit mask i = true then fieldRaw i payload (offsetOf i mask) else 0 := by
  simp [layoutRaw]

theorem vector_ext_slot {α : Type} {v w : Vector α 23} (h : ∀ i : Slot, v[i] = w[i]) : v = w :=
  Vector.ext fun k hk => h ⟨k, hk⟩

/-- Everything `unpack` can answer: a reserved bit is judged before any byte (R209); a legal mask gives the record of its
layout where the payload has the bytes needed (R201, R202), and otherwise stops at a selected slot that the bytes from its
offset on do not fill (R208). -/
theorem unpack_cases (payload : List Byte) (mask : Word) :
    (2 ^ 23 ≤ mask.toNat ∧ unpack payload mask = .schemaExhausted (maskReserved mask))
      ∨ (mask.toNat < 2 ^ 23 ∧ need mask ≤ payload.length
        ∧ unpack payload mask = .record (layoutRaw payload mask) (mask.setWidth 23) (need mask))
      ∨ (mask.toNat < 2 ^ 23 ∧ ∃ i, hasBit mask i = true ∧ offsetOf i mask ≤ payload.length
        ∧ payload.length < offsetOf i mask + width i
        ∧ unpack payload mask = .truncatedPayload i (payload.length - offsetOf i mask)) := by
  rcases Nat.lt_or_ge mask.toNat (2 ^ 23) with hmask | hmask
  · have hlegal : maskReserved mask = 0 := (maskReserved_eq_zero_iff mask).2 hmask
    cases hw : walkSlots payload mask allSlots walkStart with
    | ok w =>
      have hrec : unpack payload mask = .record w.raw w.valid w.off := by simp [unpack, hlegal, hw]
      obtain ⟨-, hvalid, hneed, hle, -⟩ := unpack_record hrec
      have hraw : w.raw = layoutRaw payload mask := vector_ext_slot fun i => by
        rw [walkSlots_raw hw (List.nil_append _) rfl i, getElem_layoutRaw]
        simp [walkStart]
      exact .inr (.inl ⟨hmask, hneed ▸ hle, by rw [hrec, hraw, hvalid, hneed, maskSlots_eq_setWidth]⟩)
    | error e =>
      obtain ⟨i, remaining⟩ := e
      obtain ⟨hbit, hstart, hend, rfl⟩ := walkSlots_stops hw (List.nil_append _) rfl (Nat.zero_le _)
      exact .inr (.inr ⟨hmask, i, hbit, hstart, hend, by simp [unpack, hlegal, hw]⟩)
  · exact .inl ⟨hmask, if_pos (by rw [Ne, maskReserved_eq_zero_iff]; omega)⟩

section Unpack

variable {payload : List Byte} {mask : Word}

theorem unpack_of_reserved (hmask : 2 ^ 23 ≤ mask.toNat) (payload : List Byte) :
    unpack payload mask = .schemaExhausted (maskReserved mask) := by
  obtain ⟨-, h⟩ | ⟨hlegal, -⟩ | ⟨hlegal, -⟩ := unpack_cases payload mask
  · exact h
  · omega
  · omega

theorem unpack_of_enough (hmask : mask.toNat < 2 ^ 23) (hlen : need mask ≤ payload.length) :
    unpack payload mask = .record (layoutRaw payload mask) (mask.setWidth 23) (need mask) := by
  obtain ⟨hres, -⟩ | ⟨-, -, h⟩ | ⟨-, i, hbit, -, hend, -⟩ := unpack_cases payload mask
  · omega
  · exact h
  · have := offsetOf_add_width_le_need hbit
    omega

theorem exists_unpack_eq_truncatedPayload (hmask : mask.toNat < 2 ^ 23) (hlen : payload.length < need mask) :
    ∃ i, hasBit mask i = true ∧ offsetOf i mask ≤ payload.length ∧ payload.length < offsetOf i mask + width i
      ∧ unpack payload mask = .truncatedPayload i (payload.length - offsetOf i mask) := by
  obtain ⟨hres, -⟩ | ⟨-, hneed, -⟩ | ⟨-, h⟩ := unpack_cases payload mask
  · omega
  · omega
  · exact h

end Unpack

/-- Settles O43: the reserved bits, and the slot at which the walk stops, before which the present slots lie side by side. -/
theorem unpackErrorsAreExact : Obligations.UnpackErrorsAreExact := by
  refine fun mask b => ⟨fun hmask => unpack_of_reserved hmask b, fun hmask hlen => ?_⟩
  obtain ⟨i, hbit, hstart, hend, hr⟩ := exists_unpack_eq_truncatedPayload hmask hlen
  exact ⟨i, hr, hbit, hstart, hend, fun j hji hj => (offsetOf_add_width_le_offsetOf hj hji).trans hstart⟩

/-- Settles O42: the record of the layout, and the selected slots side by side. -/
theorem unpackFollowsTheLayout : Obligations.UnpackFollowsTheLayout := by
  refine fun mask b hmask hlen =>
    ⟨⟨layoutRaw b mask, unpack_of_enough hmask hlen, fun i => ?_⟩, fun i => offsetOf_add_width_le_need, ?_⟩
  · rw [getElem_layoutRaw, fieldRaw_drop]
    rfl
  · rw [need_eq_bytesOf]
    exact (flatMap_fieldSlices b (List.nil_append _)).symm

/-- Settles O45: every field of the layout lies within the bytes needed. -/
theorem excessBytesAreIgnored : Obligations.ExcessBytesAreIgnored := by
  intro mask b extra hmask hlen
  have hraw : layoutRaw (b ++ extra) mask = layoutRaw b mask := vector_ext_slot fun i => by
    rw [getElem_layoutRaw, getElem_layoutRaw]
    split_ifs with hbit
    · exact fieldRaw_append ((offsetOf_add_width_le_need hbit).trans hlen) extra
    · rfl
  rw [unpack_of_enough hmask (by rw [List.length_append]; omega), unpack_of_enough hmask hlen, hraw]

end Sys2Proof.Proofs
end

section
/-! PROOFS. Packing and unpacking (R217): the bytes of a field give its integer back, and `pack` puts them at the field's
offset. -/

namespace Sys2Proof.Proofs

open Sys2Proof Sys2Proof.Machine

/-! ### The bytes of one field -/

section FieldBytes

variable {i : Slot}

theorem fieldBytes_opaque (hi : isOpaqueSlot i = true) (v : Int) : fieldBytes i v = [BitVec.ofInt 8 v] := by
  simp [fieldBytes, hi]

theorem fieldBytes_two (hi : isOpaqueSlot i = false) (hw : width i = 2) (v : Int) :
    fieldBytes i v = bytesOf16 (BitVec.ofInt 16 v) := by
  simp [fieldBytes, hi, hw]

theorem fieldBytes_four (hi : isOpaqueSlot i = false) (hw : width i = 4) (v : Int) :
    fieldBytes i v = bytesOf32 (BitVec.ofInt 32 v) := by
  simp [fieldBytes, hi, hw]

theorem length_fieldBytes (i : Slot) (v : Int) : (fieldBytes i v).length = width i := by
  obtain ⟨hi, hw⟩ | ⟨hi, hw⟩ | ⟨hi, hw⟩ := slot_kinds i
  · rw [fieldBytes_opaque hi, hw]; rfl
  · rw [fieldBytes_two hi hw, hw]; rfl
  · rw [fieldBytes_four hi hw, hw]; rfl

/-- The big-endian bytes of a 16-bit value assemble to it (R66). -/
theorem be16_hiByte_loByte (h : Half) : be16 (hiByte h) (loByte h) = h := by
  rw [be16, hiByte_eq, loByte_eq, bytes_append]

theorem toNat_be32 (b0 b1 b2 b3 : Byte) :
    (be32 b0 b1 b2 b3).toNat = ((b0.toNat * 256 + b1.toNat) * 256 + b2.toNat) * 256 + b3.toNat := by
  unfold be32
  rw [toNat_append_eq, toNat_append_eq, toNat_append_eq]
  omega

/-- The big-endian bytes of a 32-bit value assemble to it (R66). -/
theorem be32_bytes (v : Word) :
    be32 (v.extractLsb' 24 8) (v.extractLsb' 16 8) (v.extractLsb' 8 8) (v.extractLsb' 0 8) = v := by
  apply BitVec.eq_of_toNat_eq
  simp only [toNat_be32, BitVec.extractLsb'_toNat, Nat.shiftRight_eq_div_pow]
  omega

theorem toInt_zext8 (b : Byte) : (zext8 b).toInt = b.toNat := by
  rw [zext8, BitVec.toInt_setWidth, Int.bmod_eq_of_le] <;> omega

theorem toInt_sext16 (h : Half) : (sext16 h).toInt = h.toInt :=
  BitVec.toInt_signExtend_of_le (by decide)

/-- A value in its field's range comes back from its bytes: the byte is unsigned, the others are two's complement (R203 to
R205). -/
theorem toInt_fieldRaw_fieldBytes {v : Int} (hv : fieldInRange i v = true) : (fieldRaw i (fieldBytes i v) 0).toInt = v := by
  obtain ⟨hi, hw⟩ | ⟨hi, hw⟩ | ⟨hi, hw⟩ := slot_kinds i
  · have hrange : 0 ≤ v ∧ v ≤ 255 := by simpa [fieldInRange, hi] using hv
    have hraw : fieldRaw i [BitVec.ofInt 8 v] 0 = zext8 (BitVec.ofInt 8 v) := fieldRaw_opaque hi _ _
    rw [fieldBytes_opaque hi, hraw, toInt_zext8, BitVec.toNat_ofInt]
    omega
  · have hrange : -32768 ≤ v ∧ v ≤ 32767 := by simpa [fieldInRange, hi, hw] using hv
    have hraw : fieldRaw i (bytesOf16 (BitVec.ofInt 16 v)) 0 = sext16 (BitVec.ofInt 16 v) :=
      (fieldRaw_two hi hw _ _).trans (congrArg sext16 (be16_hiByte_loByte _))
    rw [fieldBytes_two hi hw, hraw, toInt_sext16, BitVec.toInt_ofInt, Int.bmod_eq_of_le] <;> omega
  · have hrange : -2147483648 ≤ v ∧ v ≤ 2147483647 := by simpa [fieldInRange, hi, hw] using hv
    have hraw : fieldRaw i (bytesOf32 (BitVec.ofInt 32 v)) 0 = BitVec.ofInt 32 v :=
      (fieldRaw_four hi hw _ _).trans (be32_bytes _)
    rw [fieldBytes_four hi hw, hraw, BitVec.toInt_ofInt, Int.bmod_eq_of_le] <;> omega

end FieldBytes

/-! ### `pack` -/

/-- The bytes that the selected ones of some slots are packed into. -/
def packSlots (v : Vector Int 23) (mask : Word) (slots : List Slot) : List Byte :=
  (slots.filter fun i => hasBit mask i).flatMap fun i => fieldBytes i v[i]

section Pack

variable (v : Vector Int 23)

theorem pack_eq_packSlots (mask : Word) : pack v mask = packSlots v mask allSlots := rfl

theorem packSlots_append (mask : Word) (pre post : List Slot) :
    packSlots v mask (pre ++ post) = packSlots v mask pre ++ packSlots v mask post := by
  simp [packSlots]

theorem packSlots_cons {mask : Word} {i : Slot} (hbit : hasBit mask i = true) (is : List Slot) :
    packSlots v mask (i :: is) = fieldBytes i v[i] ++ packSlots v mask is := by
  simp [packSlots, hbit]

theorem length_packSlots (mask : Word) (slots : List Slot) : (packSlots v mask slots).length = bytesOf mask slots := by
  simp [packSlots, bytesOf, length_fieldBytes]

theorem length_pack (mask : Word) : (pack v mask).length = need mask := by
  rw [pack_eq_packSlots, length_packSlots, need_eq_bytesOf]

/-- A selected field's bytes stand at its offset in the packed payload (R100). -/
theorem fieldRaw_pack {mask : Word} {i : Slot} (hbit : hasBit mask i = true) :
    fieldRaw i (pack v mask) (offsetOf i mask) = fieldRaw i (fieldBytes i v[i]) 0 := by
  obtain ⟨pre, post, hsplit⟩ := exists_split i
  have hpack : pack v mask = packSlots v mask pre ++ (fieldBytes i v[i] ++ packSlots v mask post) := by
    rw [pack_eq_packSlots, ← hsplit, packSlots_append, packSlots_cons v hbit]
  have hoff : offsetOf i mask = (packSlots v mask pre).length := by
    rw [offsetOf_of_split hsplit, length_packSlots]
  rw [← fieldRaw_drop, hpack, hoff, List.drop_left]
  exact fieldRaw_append (by rw [length_fieldBytes]; omega) _

end Pack

/-- Settles O44: the packed payload has exactly the bytes needed, so unpacking reads each field at its offset, where `pack`
put it. -/
theorem packThenUnpackRoundTrips : Obligations.PackThenUnpackRoundTrips := by
  intro v mask hmask hrange
  have hlen := length_pack v mask
  refine ⟨layoutRaw (pack v mask) mask, by rw [unpack_of_enough hmask hlen.ge, hlen], fun i hsel => ?_⟩
  have hbit : hasBit mask i = true := hsel
  have hraw : (layoutRaw (pack v mask) mask)[i] = fieldRaw i (fieldBytes i v[i]) 0 := by
    rw [getElem_layoutRaw, if_pos hbit, fieldRaw_pack v hbit]
  rw [hraw]
  exact toInt_fieldRaw_fieldBytes (hrange i hsel)

end Sys2Proof.Proofs
end

section
/-! PROOFS. The unpacker's operations: `UNP.CLR` (R210), `UNP.PUSH` (R211), `UNP.RUN` (R212, R218) and `UNP.RD` (R213), each
outcome with the whole next state. -/

namespace Sys2Proof.Proofs

open Sys2Proof Sys2Proof.Machine
open Sys2Proof.Spec (answered logged noRecord cmdRows)

/-! ### `UNP.CLR` and `UNP.PUSH` -/

/-- Settles O36: the row of R81 and what the operation does, which does not look at the state. -/
theorem unpClrEmptiesTheUnpacker : Obligations.UnpClrEmptiesTheUnpacker :=
  ⟨portLine_of_row (r := (0x40, 0, fun _ => .unpClr)) (by simp [cmdRows]),
    fun _ => congrArg Host.Outcome.next (answerOk_eq 0 _)⟩

theorem exec_unpPush_full (b : Byte) {s : State} (hfull : s.ubufLen.toNat = s.cfg.ubufSize) :
    exec (.unpPush b) s = .next (logged .bufferFull 11 0 s) :=
  (if_pos hfull).trans (congrArg Host.Outcome.next (refuse_eq_logged .bufferFull s))

theorem exec_unpPush_stores (b : Byte) {s : State} (hroom : s.ubufLen.toNat < s.cfg.ubufSize) :
    exec (.unpPush b) s = .next (answered .ok (zext16 (s.ubufLen + 1#16))
      { s with ubuf := s.ubuf.write s.ubufLen.toNat b, ubufLen := s.ubufLen + 1#16 }) := by
  have hwrite : writeByte s.cfg.ubufSize s.ubuf s.ubufLen.toNat b = some (s.ubuf.write s.ubufLen.toNat b) :=
    writeByte_eq_some.2 ⟨hroom, rfl⟩
  change execUnpPush b s = _
  rw [execUnpPush, if_neg hroom.ne, hwrite, Option.map_some, orFault_some, answerOk_eq]

theorem add_one_eq_ofNat (n : Half) : n + 1#16 = BitVec.ofNat 16 (n.toNat + 1) := by
  bv_omega

/-- Below the largest length the count does not wrap, so the data is the length itself (R27). -/
theorem zext16_add_one {n : Half} (h : n.toNat < 65535) : zext16 (n + 1#16) = BitVec.ofNat 32 (n.toNat + 1) := by
  rw [zext16]
  bv_omega

/-- Settles O37: the full buffer is judged first. -/
theorem unpPushAppendsAByte : Obligations.UnpPushAppendsAByte := by
  refine ⟨portLine_of_row (r := (0x41, 8, fun a => .unpPush (a.setWidth 8))) (by simp [cmdRows]),
    fun b s => exec_unpPush_full b, fun b s hroom hsize => ?_⟩
  rw [← zext16_add_one (by omega), ← add_one_eq_ofNat]
  exact exec_unpPush_stores b hroom

/-! ### `UNP.RUN` -/

/-- A run goes on unless a legal mask meets a length beyond the buffer, and then has the effect of `unpack` (R212). -/
theorem runMask_eq_some_takeResult {mask : Word} {s t : State} :
    runMask mask s = some t ↔ (mask.toNat < 2 ^ 23 → s.ubufLen.toNat ≤ s.cfg.ubufSize)
      ∧ t = takeResult (unpack (ubufBytes s) mask) { s with uMask := mask } := by
  rw [runMask_eq_some, ← maskReserved_eq_zero_iff]
  by_cases hmask : maskReserved mask = 0#9
  · simp [hmask]
  · simp [hmask, unpack, takeResult]

/-- The detail of `TruncatedPayload` as a number: what remained, above the slot (R251). -/
theorem truncatedInfo_eq {remaining : Nat} (i : Slot) (h : remaining ≤ 3) :
    truncatedInfo i remaining = BitVec.ofNat 32 (remaining * 256 + i.val) := by
  apply BitVec.eq_of_toNat_eq
  simp only [truncatedInfo, toNat_append_eq, BitVec.toNat_ofNat]
  omega

theorem takeResult_truncatedPayload {remaining : Nat} (i : Slot) (h : remaining ≤ 3) (mask : Word) (s : State) :
    takeResult (.truncatedPayload i remaining) { s with uMask := mask }
      = logged .truncatedPayload 3 (BitVec.ofNat 32 (remaining * 256 + i.val)) (noRecord mask .truncatedPayload s) := by
  rw [takeResult, raise_eq_logged, truncatedInfo_eq i h]
  rfl

/-- Settles O38: one case for each result of `unpack`. -/
theorem unpRunUnpacksTheBuffer : Obligations.UnpRunUnpacksTheBuffer := by
  refine ⟨portLine_of_row (r := (0x42, 32, fun a => .unpRun a)) (by simp [cmdRows]), fun mask s hsize => ?_⟩
  have hrun : exec (.unpRun mask) s = .next (takeResult (unpack (ubufBytes s) mask) { s with uMask := mask }) :=
    congrArg orFault (runMask_eq hsize)
  rw [← ubufBytes, hrun]
  obtain ⟨-, hr⟩ | ⟨-, -, hr⟩ | ⟨-, i, -, hstart, hend, hr⟩ := unpack_cases (ubufBytes s) mask
  · rw [hr, takeResult, raise_schemaExhausted_eq]
    exact ⟨by rw [BitVec.ofNat_toNat], toNat_maskReserved mask⟩
  · rw [hr, takeResult, holdRecord_eq]
  · have hremaining : (ubufBytes s).length - offsetOf i mask ≤ 3 := by
      have := width_le i
      omega
    rw [hr, takeResult_truncatedPayload i hremaining]
    exact ⟨hremaining, rfl⟩

/-- The number of timestamps drawn before bears on the timestamp only (R218, log 8). -/
theorem takeResult_withDraws (r : UnpackResult) (k : Nat) (s : State) :
    takeResult r { s with draws := k }
      = { takeResult r s with uTs := (takeResult r { s with draws := k }).uTs,
                              draws := (takeResult r { s with draws := k }).draws } := by
  cases r <;> rfl

theorem takeResult_of_no_record {r : UnpackResult} {s : State} (h : (takeResult r s).uRes ≠ .ok) :
    (takeResult r s).uTs = 0 ∧ (takeResult r s).draws = s.draws := by
  cases r with
  | record raw valid consumed => exact absurd rfl h
  | schemaExhausted hi => exact ⟨rfl, rfl⟩
  | truncatedPayload i remaining => exact ⟨rfl, rfl⟩

/-- Settles O46: both runs unpack the same bytes, and only a record takes a timestamp. -/
theorem runsDifferOnlyInTheTimestamp : Obligations.RunsDifferOnlyInTheTimestamp := by
  intro mask s t k hexec
  obtain ⟨hsize, rfl⟩ := runMask_eq_some_takeResult.1 (orFault_eq_next.1 hexec)
  exact ⟨⟨_, orFault_eq_next.2 (runMask_eq_some_takeResult.2 ⟨hsize, rfl⟩),
    takeResult_withDraws (unpack (ubufBytes s) mask) k { s with uMask := mask }⟩, takeResult_of_no_record⟩

/-! ### `UNP.RD` -/

theorem exec_unpRd_beyond {x : BitVec 5} (s : State) (h : 23 ≤ x.toNat) :
    exec (.unpRd x) s = .next (logged .indexRange 12 0 s) := by
  change execUnpRd x s = _
  rw [execUnpRd, slotOf_eq_none h]
  exact congrArg Host.Outcome.next (refuse_eq_logged .indexRange s)

/-- With a slot named, the record is judged, then the slot's presence (R213). -/
theorem exec_unpRd_slot (i : Slot) (s : State) :
    exec (.unpRd (BitVec.ofNat 5 i.val)) s
      = if s.uRes ≠ .ok then .next (refuse .noData s)
        else if hasBit s.uValid i = false then .next (answer .absent 0 [] s)
        else .next (answerOk s.uRaw[i] s) := by
  change execUnpRd _ s = _
  rw [execUnpRd, slotOf_ofNat]

section ReadSlot

variable {i : Slot} {s : State}

theorem exec_unpRd_noData (hres : s.uRes ≠ .ok) :
    exec (.unpRd (BitVec.ofNat 5 i.val)) s = .next (logged .noData 13 0 s) := by
  rw [exec_unpRd_slot, if_pos hres, refuse_eq_logged]
  rfl

theorem exec_unpRd_absent (hres : s.uRes = .ok) (hbit : hasBit s.uValid i = false) :
    exec (.unpRd (BitVec.ofNat 5 i.val)) s = .next (answered .absent 0 s) := by
  rw [exec_unpRd_slot, if_neg (not_not_intro hres), if_pos hbit]
  simp [answer, answered]

theorem exec_unpRd_present (hres : s.uRes = .ok) (hbit : hasBit s.uValid i = true) :
    exec (.unpRd (BitVec.ofNat 5 i.val)) s = .next (answered .ok s.uRaw[i] s) := by
  rw [exec_unpRd_slot, if_neg (not_not_intro hres), if_neg (by simp [hbit]), answerOk_eq]

end ReadSlot

/-- Settles O39: the range, then the record, then the slot. -/
theorem unpRdReadsAField : Obligations.UnpRdReadsAField :=
  ⟨portLine_of_row (r := (0x43, 5, fun a => .unpRd (a.setWidth 5))) (by simp [cmdRows]),
    fun _ s => exec_unpRd_beyond s, fun _ _ => ⟨exec_unpRd_noData, exec_unpRd_absent, exec_unpRd_present⟩⟩

end Sys2Proof.Proofs
end

section
/-! PROOFS. The rows `FIELD.0` to `FIELD.22` (R203 to R205, R208): each is a run under the mask of its slot alone. -/

namespace Sys2Proof.Proofs

open Sys2Proof Sys2Proof.Machine
open Sys2Proof.Spec (firstField fieldTable)

/-! ### The layout of one slot alone (R107) -/

theorem slotMask_lt (i : Slot) : (slotMask i).toNat < 2 ^ 23 := by
  revert i
  decide

theorem setWidth_slotMask (i : Slot) : (slotMask i).setWidth 23 = 1#23 <<< i.val := by
  revert i
  decide

theorem hasBit_slotMask (i j : Slot) : hasBit (slotMask i) j = decide (j = i) := by
  revert i j
  decide

theorem need_slotMask (i : Slot) : need (slotMask i) = width i := by
  revert i
  decide

theorem offsetOf_slotMask (i : Slot) : offsetOf i (slotMask i) = 0 := by
  revert i
  decide

theorem layoutRaw_slotMask (payload : List Byte) (i : Slot) :
    layoutRaw payload (slotMask i) = (Vector.replicate 23 0).set i (fieldRaw i payload 0) := by
  refine vector_ext_slot fun j => ?_
  rw [getElem_layoutRaw, getElem_set_slot, hasBit_slotMask]
  by_cases hji : j = i
  · simp [hji, offsetOf_slotMask]
  · simp [hji]

/-- The field at index 0 of `UBUF`, its bytes assembled as numbers (R203 to R205). -/
theorem fieldRaw_slice {i : Slot} {n : Nat} (m : Memory) (h : width i ≤ n) :
    fieldRaw i (m.slice 0 n) 0 = firstField i m := by
  have hbyte (k : Nat) (hk : k < width i) : (m.slice 0 n).getD k 0 = m.read k := by
    simp [Memory.slice, List.getD_eq_getElem?_getD, show k < n by omega]
  unfold firstField
  rw [← width_eq]
  obtain ⟨hi, hw⟩ | ⟨hi, hw⟩ | ⟨hi, hw⟩ := slot_kinds i
  · rw [if_pos hw, fieldRaw_opaque hi, hbyte 0 (by omega), BitVec.ofNat_toNat, zext8]
  · rw [if_neg (by omega), if_pos hw, fieldRaw_two hi hw, hbyte 0 (by omega), hbyte 1 (by omega), ← toNat_be16,
      BitVec.ofNat_toNat, BitVec.setWidth_eq, sext16]
  · rw [if_neg (by omega), if_neg (by omega), fieldRaw_four hi hw, hbyte 0 (by omega), hbyte 1 (by omega),
      hbyte 2 (by omega), hbyte 3 (by omega), ← toNat_be32, BitVec.ofNat_toNat, BitVec.setWidth_eq]

/-- Under the mask of one slot the payload holds that slot's field first, or is too short for it (R202, R208). -/
theorem unpack_slotMask_of_enough {payload : List Byte} {i : Slot} (h : width i ≤ payload.length) :
    unpack payload (slotMask i)
      = .record ((Vector.replicate 23 0).set i (fieldRaw i payload 0)) (1#23 <<< i.val) (width i) := by
  rw [unpack_of_enough (slotMask_lt i) (by rwa [need_slotMask]), layoutRaw_slotMask, setWidth_slotMask, need_slotMask]

theorem unpack_slotMask_of_short {payload : List Byte} {i : Slot} (h : payload.length < width i) :
    unpack payload (slotMask i) = .truncatedPayload i payload.length := by
  obtain ⟨j, hbit, -, -, hr⟩ := exists_unpack_eq_truncatedPayload (slotMask_lt i) (by rwa [need_slotMask])
  obtain rfl : j = i := by simpa [hasBit_slotMask] using hbit
  rw [hr, offsetOf_slotMask, Nat.sub_zero]

/-! ### The rows -/

theorem givenMask_of_mem_fieldTable {r : Slot × Instr} (h : r ∈ fieldTable) : givenMask r.2 = some (slotMask r.1) := by
  revert r
  decide

/-- Settles O40: the row runs the unpacker under its slot's mask, and that slot's field is the first of the payload. -/
theorem fieldRowsUnpackTheirSlot : Obligations.FieldRowsUnpackTheirSlot := by
  rintro ⟨i, row⟩ hr s hsize
  have hrun : exec row s = .next (takeResult (unpack (ubufBytes s) (slotMask i)) { s with uMask := slotMask i }) := by
    rw [exec_of_givenMask (givenMask_of_mem_fieldTable hr), runMask_eq hsize, orFault_some]
  have hlen : (ubufBytes s).length = s.ubufLen.toNat := Memory.length_slice _ _ _
  dsimp only
  rw [← width_eq, hrun]
  refine ⟨fun henough => ?_, fun hshort => ?_⟩
  · rw [unpack_slotMask_of_enough (by omega), takeResult, holdRecord_eq, ubufBytes, fieldRaw_slice _ henough]
    rfl
  · have := width_le i
    rw [unpack_slotMask_of_short (by omega), takeResult_truncatedPayload i (by omega), hlen]
    rfl

end Sys2Proof.Proofs
end

section
/-! PROOFS. The system operations (R231 to R233): `NOP`, `RESET` with the reset input, and `CSR.RD` with the layout of the
twelve registers (R40 to R52). -/

namespace Sys2Proof.Proofs

open Sys2Proof Sys2Proof.Machine
open Sys2Proof.Spec (answered cmdRows logged encStateNumber decStateNumber decResNumber uResNumber)

/-! ### `NOP` and `RESET` -/

/-- Settles O7: the row of R81 and what the operation does, which does not look at the state. -/
theorem nopAnswersAndChangesNothing : Obligations.NopAnswersAndChangesNothing :=
  ⟨portLine_of_row (r := (0x00, 0, fun _ => .nop)) (by simp [cmdRows]),
    fun s => congrArg Host.Outcome.next (answerOk_eq 0 s)⟩

/-- `resetBlock` puts the values of R55 over every register and keeps the buffers' bytes, the TX history and the parameters. -/
theorem exec_reset (s : State) : exec .reset s = .next (answered .ok 0 (resetBlock s)) :=
  congrArg Host.Outcome.next (answerOk_eq 0 _)

/-- The reset input leaves what `RESET` leaves, but for the response (R282). -/
theorem step_resetInput (s : State) :
    step (present .resetInput s) = .next { answered .ok 0 (resetBlock s) with rsp := none } :=
  step_present .resetInput s

/-- Settles O8: the row of R81, the stickiness of the log under every other operation, and the one effect that `RESET` and the
reset input have. -/
theorem resetRestoresEveryRegister : Obligations.ResetRestoresEveryRegister :=
  ⟨portLine_of_row (r := (0x01, 0, fun _ => .reset)) (by simp [cmdRows]),
    fun _ _ _ => errlog_kept_of_exec,
    fun s => ⟨_, exec_reset s, step_resetInput s⟩,
    exec_reset⟩

/-! ### The codes of states and results (R24, R29, R30) -/

theorem toNat_encState_code (x : EncState) : x.code.toNat = encStateNumber x := by cases x <;> rfl

theorem toNat_decState_code (x : DecState) : x.code.toNat = decStateNumber x := by cases x <;> rfl

theorem toNat_decRes_code (x : DecRes) : x.code.toNat = decResNumber x := by cases x <;> rfl

theorem toNat_uRes_code (x : URes) : x.code.toNat = uResNumber x := by cases x <;> rfl

/-! ### The registers of several fields

Each field of a word weighs the power of two of its lowest bit, and the unassigned bits between fields are 0. -/

/-- A word is the number its bits make. -/
theorem eq_ofNat_of_toNat_eq {w : Word} {n : Nat} (h : w.toNat = n) : w = BitVec.ofNat 32 n := by
  rw [← h, BitVec.ofNat_toNat, BitVec.setWidth_eq]

/-- `CSR_ENC_CTL` (R42). -/
theorem csrRead_encCtl (s : State) :
    csrRead 0x01 s = some (BitVec.ofNat 32 (encStateNumber s.encState + 65536 * s.encRem.toNat)) := by
  refine congrArg some (eq_ofNat_of_toNat_eq ?_)
  simp only [toNat_append_eq, toNat_encState_code, BitVec.toNat_zero]
  omega

/-- `CSR_DEC_CTL` (R44). -/
theorem csrRead_decCtl (s : State) :
    csrRead 0x03 s
      = some (BitVec.ofNat 32 (decStateNumber s.decState + 16 * decResNumber s.decRes + 256 * s.decOff.toNat)) := by
  refine congrArg some (eq_ofNat_of_toNat_eq ?_)
  simp only [toNat_append_eq, toNat_decState_code, toNat_decRes_code, BitVec.toNat_zero]
  omega

/-- `CSR_DEC_CRCS` (R47). -/
theorem csrRead_decCrcs (s : State) :
    csrRead 0x06 s = some (BitVec.ofNat 32 (65536 * s.decCrcCalc.toNat + s.decCrcRecv.toNat)) := by
  rw [Nat.mul_comm, ← append_eq_ofNat]
  rfl

/-- `CSR_UNP_CTL` (R48). -/
theorem csrRead_unpCtl (s : State) :
    csrRead 0x07 s
      = some (BitVec.ofNat 32 (uResNumber s.uRes + 256 * s.uConsumed.toNat + 65536 * s.ubufLen.toNat)) := by
  refine congrArg some (eq_ofNat_of_toNat_eq ?_)
  simp only [toNat_append_eq, toNat_uRes_code, BitVec.toNat_zero]
  omega

/-! ### `CSR.RD` -/

/-- What the read of an assigned register answers is the register (R233). -/
theorem exec_csrRd_of_csrRead {n : Byte} {s : State} {v : Word} (h : csrRead n s = some v) :
    exec (.csrRd n) s = .next (answered .ok v s) := by
  change execCsrRd n s = _
  simp only [execCsrRd, h, answerOk_eq]

/-- A register of one field, of any width up to 32, is the field's value: its field begins at bit 0. -/
theorem exec_csrRd_of_field {n : Byte} {s : State} {k : Nat} {x : BitVec k} (h : csrRead n s = some (x.setWidth 32)) :
    exec (.csrRd n) s = .next (answered .ok (BitVec.ofNat 32 x.toNat) s) := by
  rw [BitVec.ofNat_toNat]
  exact exec_csrRd_of_csrRead h

theorem exec_csrRd_unassigned {n : Byte} (s : State) (h : 0x0B < n.toNat) :
    exec (.csrRd n) s = .next (logged .indexRange 12 0 s) := by
  change execCsrRd n s = _
  simp only [execCsrRd, csrRead_eq_none.2 h]
  exact congrArg Host.Outcome.next (refuse_eq_logged .indexRange s)

/-- Settles O9: register by register, and then the numbers without one. `CSR_UNP_TS` shows the low 32 bits of the timestamp
whatever its width, so that its read needs no premise. -/
theorem csrReadGivesTheRegister : Obligations.CsrReadGivesTheRegister := by
  refine ⟨portLine_of_row (r := (0x02, 8, fun a => .csrRd (a.setWidth 8))) (by simp [cmdRows]), fun s r hr => ?_,
    fun s _ => exec_csrRd_of_csrRead rfl, fun s => ⟨_, exec_csrRd_of_csrRead rfl⟩, fun _ s => exec_csrRd_unassigned s⟩
  simp only [List.mem_cons, List.not_mem_nil, or_false] at hr
  obtain rfl | rfl | rfl | rfl | rfl | rfl | rfl | rfl | rfl | rfl | rfl := hr
  · exact exec_csrRd_of_field rfl
  · exact exec_csrRd_of_csrRead (csrRead_encCtl s)
  · exact exec_csrRd_of_field rfl
  · exact exec_csrRd_of_csrRead (csrRead_decCtl s)
  · exact exec_csrRd_of_field rfl
  · exact exec_csrRd_of_field rfl
  · exact exec_csrRd_of_csrRead (csrRead_decCrcs s)
  · exact exec_csrRd_of_csrRead (csrRead_unpCtl s)
  · exact exec_csrRd_of_field (congrArg some (BitVec.setWidth_eq _).symm)
  · exact exec_csrRd_of_field rfl
  · exact exec_csrRd_of_field (congrArg some (BitVec.setWidth_eq _).symm)

end Sys2Proof.Proofs
end

section
/-! PROOFS. After a run of the unpacker that fails (R255, R256, R274): no record, and the payload as it was. -/

namespace Sys2Proof.Proofs

open Sys2Proof Sys2Proof.Machine

/-- Without a held record no slot carries a value, whatever the record registers hold (I20). -/
theorem recordField_of_no_record {s : State} (h : s.uRes ≠ .ok) (i : Slot) : recordField s i = none :=
  if_neg fun hheld => h hheld.1

/-- A run that does not answer `OK` raised one of the two schema errors: its code is in `U_RES`, and of the unpacker's other
inputs only the mask was taken. -/
theorem runMask_failed {mask : Word} {s t : State} {r : Response} (h : runMask mask s = some t) (hr : t.rsp = some r)
    (hfailed : r.status ≠ .ok) : t.uRes ≠ .ok ∧ t.uMask = mask ∧ t.ubuf = s.ubuf ∧ t.ubufLen = s.ubufLen := by
  obtain ⟨raw, valid, consumed, -, rfl⟩ | ⟨info, rfl⟩ | ⟨info, rfl⟩ := runMask_cases h
  · cases hr
    exact absurd rfl hfailed
  · exact ⟨by simp, rfl, rfl, rfl⟩
  · exact ⟨by simp, rfl, rfl, rfl⟩

/-- Settles O47: a failed run leaves an error in `U_RES`, and that is all a read of a field looks at. -/
theorem failedRunLeavesNoRecord : Obligations.FailedRunLeavesNoRecord := by
  rintro mask s t hexec ⟨r, hr, hstatus⟩
  have hfailed : r.status ≠ .ok := by
    obtain hst | hst := hstatus <;> simp [hst]
  obtain ⟨hres, hbuffer⟩ := runMask_failed (orFault_eq_next.1 hexec) hr hfailed
  exact ⟨fun i => ⟨recordField_of_no_record hres i, exec_unpRd_noData hres⟩, hbuffer⟩

end Sys2Proof.Proofs
end

section
/-! PROOFS. The outcome matrix (R265, R273): from a state with the invariant every operation, and so every event, goes on, and
what an operation answers is in its row. -/

namespace Sys2Proof.Proofs

open Sys2Proof Sys2Proof.Machine
open Sys2Proof.Spec (givenByte)

/-! ### Going on: under the invariant every access is inside its buffer (R72) -/

/-- The check of a complete frame reads the payload and the checksum bytes behind it, which lie before the terminator. -/
theorem exists_decCheck {s : State} (hsize : frameTotal s ≤ s.cfg.rxbufSize) : ∃ t, decCheck s = some t := by
  rw [frameTotal] at hsize
  exact ⟨_, decCheck_eq_some.2 ⟨by omega, rfl⟩⟩

theorem exists_decAcc {s : State} (b : Byte) (hcnt : s.decCnt.toNat < frameTotal s)
    (hsize : frameTotal s ≤ s.cfg.rxbufSize) : ∃ t, decAcc b s = some t := by
  have hroom : s.decCnt.toNat < s.cfg.rxbufSize := hcnt.trans_le hsize
  by_cases hmore : s.decCnt.toNat + 1 < frameTotal s
  · exact ⟨_, decAcc_eq_some.2 ⟨hroom, .inl ⟨hmore, rfl⟩⟩⟩
  · by_cases hterm : b = 0x03#8
    · obtain ⟨t, ht⟩ := exists_decCheck (s := { s with rxbuf := s.rxbuf.write s.decCnt.toNat b }) hsize
      exact ⟨t, decAcc_eq_some.2 ⟨hroom, .inr (.inr ⟨not_lt.1 hmore, hterm, ht⟩)⟩⟩
    · exact ⟨_, decAcc_eq_some.2 ⟨hroom, .inr (.inl ⟨not_lt.1 hmore, hterm, rfl⟩)⟩⟩

/-- The decoder accepts a byte in every state (R165). -/
theorem exists_takeByte {s : State} (hinv : Inv s) (b : Byte) : ∃ t, takeByte b s = some t := by
  cases hst : s.decState with
  | hdr => exact ⟨_, (takeByte_hdr hst).trans (decHeader_eq b s)⟩
  | len => exact ⟨_, takeByte_shortLength hst⟩
  | lenh => exact ⟨_, takeByte_longLengthHigh hst⟩
  | lenl => exact ⟨_, takeByte_longLengthLow hst⟩
  | acc =>
    obtain ⟨-, -, -, -, hacc⟩ := hinv.decCounts
    rw [takeByte_acc hst]
    exact exists_decAcc b (hacc hst).2 (frameTotal_le_rxbufSize hinv)

theorem exists_exec_decRd {s : State} (hinv : Inv s) (idx : Half) : ∃ t, exec (.decRd idx) s = .next t := by
  have hsize := frameTotal_le_rxbufSize hinv
  rw [frameTotal] at hsize
  by_cases hres : s.decRes = .ok
  · obtain hidx | hidx := le_or_gt s.decL.toNat idx.toNat
    · exact ⟨_, exec_decRd_outside hres hidx⟩
    · exact ⟨_, exec_decRd_payload hres hidx (by omega)⟩
  · exact ⟨_, exec_decRd_of_not_ok idx hres⟩

theorem exists_exec_unpPush {s : State} (hbound : UbufBounded s) (b : Byte) : ∃ t, exec (.unpPush b) s = .next t := by
  obtain hroom | hfull := lt_or_eq_of_le hbound
  · exact ⟨_, exec_unpPush_stores b hroom⟩
  · exact ⟨_, exec_unpPush_full b hfull⟩

theorem exists_exec_unpRd (x : BitVec 5) (s : State) : ∃ t, exec (.unpRd x) s = .next t := by
  change ∃ t, execUnpRd x s = .next t
  unfold execUnpRd
  split
  · exact ⟨_, rfl⟩
  · split_ifs <;> exact ⟨_, rfl⟩

theorem exists_exec_encStart (len : Half) (s : State) : ∃ t, exec (.encStart len) s = .next t := by
  change ∃ t, execEncStart len s = .next t
  unfold execEncStart
  split_ifs <;> exact ⟨_, rfl⟩

theorem exists_exec_encPush (b : Byte) (s : State) : ∃ t, exec (.encPush b) s = .next t := by
  change ∃ t, execEncPush b s = .next t
  unfold execEncPush
  split_ifs <;> exact ⟨_, rfl⟩

theorem exists_exec {s : State} (hinv : Inv s) (i : Instr) : ∃ t, exec i s = .next t := by
  cases i using instr_cases with
  | nop | reset | crcClr | crcUpd b | encAbort | decDrop | unpClr => exact ⟨_, rfl⟩
  | csrRd n =>
    cases hread : csrRead n s with
    | some v => exact ⟨_, exec_csrRd_of_csrRead hread⟩
    | none => exact ⟨_, exec_csrRd_unassigned s (csrRead_eq_none.1 hread)⟩
  | encStart len => exact exists_exec_encStart len s
  | encPush b => exact exists_exec_encPush b s
  | byte i b hb =>
    obtain ⟨t, ht⟩ := exists_takeByte hinv b
    exact ⟨t, by rw [exec_of_givenByte hb, ht, orFault_some]⟩
  | decRd idx => exact exists_exec_decRd hinv idx
  | unpPush b => exact exists_exec_unpPush hinv.ubufBounded b
  | run i m hm => exact ⟨_, by rw [exec_of_givenMask hm, runMask_eq hinv.ubufBounded, orFault_some]⟩
  | unpRd x => exact exists_exec_unpRd x s
  | schRd x =>
    cases hx : slotOf x with
    | none => exact ⟨refuse .indexRange s, by change execSchRd x s = _; rw [execSchRd, hx]⟩
    | some i => exact ⟨answerOk (schemaWord s.cfg i) s, by change execSchRd x s = _; rw [execSchRd, hx]⟩

/-- Settles O51: an item that decodes is an operation, one that does not is refused, and the reset input always goes on. -/
theorem theBlockNeverStops : Obligations.TheBlockNeverStops := by
  intro s e hinv
  rw [step_present]
  cases e with
  | resetInput => exact ⟨_, rfl⟩
  | item item =>
    cases hdec : decode (framePos s) item with
    | error err => exact ⟨_, runItem_of_decode_error hdec⟩
    | ok i =>
      obtain ⟨t, ht⟩ := exists_exec hinv i
      exact ⟨t, (runItem_of_decode_ok hdec).trans ht⟩

/-! ### The statuses of the matrix -/

/-- The machine answered in `t` with one of the statuses `allowed`. -/
abbrev AnswersIn (allowed : List Status) (t : State) : Prop := ∃ r, t.rsp = some r ∧ r.status ∈ allowed

/-- A FRAME row has the outcomes of `DEC.BYTE` (log 1). -/
theorem allowedStatuses_of_givenByte {i : Instr} {b : Byte} (hb : givenByte i = some b) :
    allowedStatuses i = [.pending, .frameOk, .unsupportedHeader, .badTerminator, .checksumMismatch] := by
  cases i <;> cases hb <;> rfl

/-- A FIELD row has the outcomes of `UNP.RUN` (log 1). -/
theorem allowedStatuses_of_givenMask {i : Instr} {m : Word} (hm : givenMask i = some m) :
    allowedStatuses i = [.ok, .schemaExhausted, .truncatedPayload] := by
  cases i <;> cases hm <;> rfl

theorem decCheck_answersIn {s t : State} (h : decCheck s = some t) : AnswersIn [.frameOk, .checksumMismatch] t := by
  obtain ⟨-, rfl⟩ := decCheck_eq_some.1 h
  dsimp only
  split_ifs <;> exact ⟨_, rfl, by simp [ProtoError.status]⟩

theorem takeByte_answersIn {b : Byte} {s t : State} (h : takeByte b s = some t) :
    AnswersIn [.pending, .frameOk, .unsupportedHeader, .badTerminator, .checksumMismatch] t := by
  cases hst : s.decState with
  | hdr =>
    rw [takeByte_hdr hst, decHeader_eq, Option.some.injEq] at h
    subst h
    split_ifs <;> exact ⟨_, rfl, by simp [ProtoError.status]⟩
  | len =>
    rw [takeByte_shortLength hst, Option.some.injEq] at h
    subst h
    exact ⟨_, rfl, by simp⟩
  | lenh =>
    rw [takeByte_longLengthHigh hst, Option.some.injEq] at h
    subst h
    exact ⟨_, rfl, by simp⟩
  | lenl =>
    rw [takeByte_longLengthLow hst, Option.some.injEq] at h
    subst h
    exact ⟨_, rfl, by simp⟩
  | acc =>
    rw [takeByte_acc hst] at h
    obtain ⟨-, ⟨-, rfl⟩ | ⟨-, -, rfl⟩ | ⟨-, -, hcheck⟩⟩ := decAcc_eq_some.1 h
    · exact ⟨_, rfl, by simp⟩
    · exact ⟨_, rfl, by simp [ProtoError.status]⟩
    · obtain ⟨r, hr, hmem⟩ := decCheck_answersIn hcheck
      exact ⟨r, hr, List.Sublist.subset (by decide) hmem⟩

theorem runMask_answersIn {mask : Word} {s t : State} (h : runMask mask s = some t) :
    AnswersIn [.ok, .schemaExhausted, .truncatedPayload] t := by
  obtain ⟨raw, valid, consumed, -, rfl⟩ | ⟨info, rfl⟩ | ⟨info, rfl⟩ := runMask_cases h
  · exact ⟨_, rfl, by simp⟩
  · exact ⟨_, rfl, by simp [ProtoError.status]⟩
  · exact ⟨_, rfl, by simp [ProtoError.status]⟩

theorem execEncStart_answersIn {len : Half} {s t : State} (h : execEncStart len s = .next t) :
    AnswersIn [.ok, .illegalState, .lengthUnrepresentable] t := by
  unfold execEncStart at h
  split_ifs at h <;> cases h <;> exact ⟨_, rfl, by simp [PortRefusal.status]⟩

/-- Whatever an operation answers is in its row of the matrix, in every state. -/
theorem exec_answersIn {i : Instr} {s t : State} (h : exec i s = .next t) : AnswersIn (allowedStatuses i) t := by
  cases i using instr_cases with
  | nop | reset | crcClr | crcUpd b | encAbort | decDrop | unpClr => cases h; exact ⟨_, rfl, List.mem_cons_self⟩
  | csrRd n =>
    obtain ⟨v, rfl⟩ | rfl := execCsrRd_cases h <;> exact ⟨_, rfl, by simp [allowedStatuses, PortRefusal.status]⟩
  | encStart len => exact execEncStart_answersIn h
  | encPush b =>
    obtain rfl | ⟨c, bytes, rfl⟩ | ⟨-, -, c, bytes, rfl⟩ := execEncPush_cases h <;>
      exact ⟨_, rfl, by simp [allowedStatuses, PortRefusal.status]⟩
  | byte i b hb =>
    rw [allowedStatuses_of_givenByte hb]
    exact takeByte_answersIn (orFault_eq_next.1 (exec_of_givenByte hb s ▸ h))
  | decRd idx =>
    obtain ⟨v, rfl⟩ | rfl | rfl := execDecRd_cases h <;> exact ⟨_, rfl, by simp [allowedStatuses, PortRefusal.status]⟩
  | unpPush b =>
    obtain rfl | ⟨-, d, rfl⟩ := execUnpPush_cases h <;> exact ⟨_, rfl, by simp [allowedStatuses, PortRefusal.status]⟩
  | run i m hm =>
    rw [allowedStatuses_of_givenMask hm]
    exact runMask_answersIn (orFault_eq_next.1 (exec_of_givenMask hm s ▸ h))
  | unpRd x =>
    obtain ⟨v, rfl⟩ | rfl | rfl | rfl := execUnpRd_cases h <;>
      exact ⟨_, rfl, by simp [allowedStatuses, PortRefusal.status]⟩
  | schRd x =>
    obtain ⟨v, rfl⟩ | rfl := execSchRd_cases h <;> exact ⟨_, rfl, by simp [allowedStatuses, PortRefusal.status]⟩

/-- Settles O52: the invariant is needed for going on only. -/
theorem everyOperationAnswersWithinTheMatrix : Obligations.EveryOperationAnswersWithinTheMatrix := by
  intro i s hinv
  obtain ⟨t, ht⟩ := exists_exec hinv i
  obtain ⟨r, hr, hmem⟩ := exec_answersIn ht
  exact ⟨t, r, ht, hr, hmem⟩

end Sys2Proof.Proofs
end

section
/-! PROOFS. The units are independent (R271): an operation but `RESET` writes the registers of its own unit only. -/

namespace Sys2Proof.Proofs

open Sys2Proof Sys2Proof.Machine
open Sys2Proof.Spec (givenByte)

/-- The registers and the buffer of unit `u` are the same; SYS and SCH have none. -/
def SameUnit (u : BlockUnit) (s t : State) : Prop :=
  match u with
  | .sys | .sch => True
  | .crc => SameCrcUnit s t
  | .enc => SameEncUnit s t
  | .dec => SameDecUnit s t
  | .unp => SameUnpUnit s t

section Registers

variable {s t : State}

@[simp] theorem sameUnit_sys : SameUnit .sys s t := trivial

@[simp] theorem sameUnit_sch : SameUnit .sch s t := trivial

@[simp] theorem sameUnit_crc : SameUnit .crc s t ↔ t.crcAcc = s.crcAcc := Iff.rfl

@[simp] theorem sameUnit_enc :
    SameUnit .enc s t ↔ t.encState = s.encState ∧ t.encRem = s.encRem ∧ t.encCrc = s.encCrc := Iff.rfl

@[simp] theorem sameUnit_dec :
    SameUnit .dec s t ↔ t.decState = s.decState ∧ t.decCnt = s.decCnt ∧ t.decL = s.decL ∧ t.decOff = s.decOff
      ∧ t.decRes = s.decRes ∧ t.decCrcCalc = s.decCrcCalc ∧ t.decCrcRecv = s.decCrcRecv ∧ t.rxbuf = s.rxbuf := Iff.rfl

@[simp] theorem sameUnit_unp :
    SameUnit .unp s t ↔ t.ubuf = s.ubuf ∧ t.ubufLen = s.ubufLen ∧ t.uMask = s.uMask ∧ t.uRes = s.uRes
      ∧ t.uValid = s.uValid ∧ t.uRaw = s.uRaw ∧ t.uConsumed = s.uConsumed ∧ t.uTs = s.uTs ∧ t.draws = s.draws := Iff.rfl

end Registers

theorem SameUnit.refl (u : BlockUnit) (s : State) : SameUnit u s s := by
  cases u <;> simp

/-- The response, the bytes emitted and the TX stream are no unit's registers (R33). -/
theorem SameUnit.answer {u : BlockUnit} {s x : State} (h : SameUnit u s x) (st : Status) (d : Word) (bytes : List Byte) :
    SameUnit u s (answer st d bytes x) := by
  cases u <;> exact h

/-- The log is no unit's register either (R31). -/
theorem SameUnit.refuse {u : BlockUnit} {s x : State} (h : SameUnit u s x) (r : PortRefusal) :
    SameUnit u s (refuse r x) := by
  cases u <;> exact h

/-- From `s` to `t` no unit but `u` changed. -/
def OnlyUnit (u : BlockUnit) (s t : State) : Prop := ∀ v, v ≠ u → SameUnit v s t

theorem onlyUnit_iff {u : BlockUnit} {s t : State} :
    OnlyUnit u s t ↔ (u ≠ .crc → SameUnit .crc s t) ∧ (u ≠ .enc → SameUnit .enc s t) ∧ (u ≠ .dec → SameUnit .dec s t)
      ∧ (u ≠ .unp → SameUnit .unp s t) := by
  constructor
  · exact fun h => ⟨fun hu => h .crc hu.symm, fun hu => h .enc hu.symm, fun hu => h .dec hu.symm, fun hu => h .unp hu.symm⟩
  · rintro ⟨hcrc, henc, hdec, hunp⟩ v hv
    cases v with
    | sys | sch => trivial
    | crc => exact hcrc hv.symm
    | enc => exact henc hv.symm
    | dec => exact hdec hv.symm
    | unp => exact hunp hv.symm

theorem OnlyUnit.answer {u : BlockUnit} {s x : State} (h : OnlyUnit u s x) (st : Status) (d : Word) (bytes : List Byte) :
    OnlyUnit u s (answer st d bytes x) := fun v hv => (h v hv).answer st d bytes

theorem onlyUnit_refuse (u : BlockUnit) (r : PortRefusal) (s : State) : OnlyUnit u s (refuse r s) :=
  fun v _ => (SameUnit.refl v s).refuse r

/-- A read writes no unit (R71). -/
theorem ReadOutcome.onlyUnit {s t : State} (h : ReadOutcome s t) (u : BlockUnit) : OnlyUnit u s t := by
  cases h with
  | answered => exact fun v _ => (SameUnit.refl v s).answer _ _ _
  | refused => exact onlyUnit_refuse u _ s

theorem unitOf_of_givenByte {i : Instr} {b : Byte} (hb : givenByte i = some b) : unitOf i = .dec := by
  cases i <;> cases hb <;> rfl

theorem unitOf_of_givenMask {i : Instr} {m : Word} (hm : givenMask i = some m) : unitOf i = .unp := by
  cases i <;> cases hm <;> rfl

/-- An operation but `RESET` changes its own unit only: the reads and the refusals none, the others what they write. -/
theorem exec_onlyUnit {i : Instr} {s t : State} (hi : i ≠ .reset) (h : exec i s = .next t) : OnlyUnit (unitOf i) s t := by
  cases i using instr_cases with
  | nop => cases h; exact fun v _ => (SameUnit.refl v s).answer _ _ _
  | reset => exact absurd rfl hi
  | csrRd n => exact (execCsrRd_outcome h).onlyUnit _
  | crcClr | crcUpd b | encAbort | decDrop | unpClr =>
    cases h
    exact OnlyUnit.answer (onlyUnit_iff.2 (by simp [unitOf])) _ _ _
  | encStart len =>
    obtain ⟨r, rfl⟩ | ⟨-, bytes, rfl⟩ | ⟨-, bytes, rfl⟩ := execEncStart_cases h
    · exact onlyUnit_refuse _ r s
    · exact OnlyUnit.answer (onlyUnit_iff.2 (by simp [unitOf])) _ _ _
    · exact OnlyUnit.answer (onlyUnit_iff.2 (by simp [unitOf])) _ _ _
  | encPush b =>
    obtain rfl | ⟨c, bytes, rfl⟩ | ⟨-, -, c, bytes, rfl⟩ := execEncPush_cases h
    · exact onlyUnit_refuse _ _ s
    · exact OnlyUnit.answer (onlyUnit_iff.2 (by simp [unitOf])) _ _ _
    · exact OnlyUnit.answer (onlyUnit_iff.2 (by simp [unitOf])) _ _ _
  | byte i b hb =>
    obtain ⟨-, hcrc, henc, hunp⟩ := takeByte_frame (orFault_eq_next.1 (exec_of_givenByte hb s ▸ h))
    exact onlyUnit_iff.2 ⟨fun _ => hcrc, fun _ => henc, fun hne => absurd (unitOf_of_givenByte hb) hne, fun _ => hunp⟩
  | decRd idx => exact (execDecRd_outcome h).onlyUnit _
  | unpPush b =>
    obtain rfl | ⟨-, d, rfl⟩ := execUnpPush_cases h
    · exact onlyUnit_refuse _ _ s
    · exact OnlyUnit.answer (onlyUnit_iff.2 (by simp [unitOf])) _ _ _
  | run i m hm =>
    obtain ⟨-, hcrc, henc, hdec⟩ := runMask_frame (orFault_eq_next.1 (exec_of_givenMask hm s ▸ h))
    exact onlyUnit_iff.2 ⟨fun _ => hcrc, fun _ => henc, fun _ => hdec, fun hne => absurd (unitOf_of_givenMask hm) hne⟩
  | unpRd x => exact (execUnpRd_outcome h).onlyUnit _
  | schRd x => exact (execSchRd_outcome h).onlyUnit _

theorem unitOf_of_emits {i : Instr} (h : emits i) : unitOf i = .enc := by
  obtain ⟨len, rfl⟩ | ⟨b, rfl⟩ := h <;> rfl

/-- Settles O57: the frame of the registers, and that only two operations of the encoder emit (R86). -/
theorem unitsAreIndependent : Obligations.UnitsAreIndependent := by
  intro i s t hexec hi
  obtain ⟨hcrc, henc, hdec, hunp⟩ := onlyUnit_iff.1 (exec_onlyUnit hi hexec)
  exact ⟨hcrc, fun hne => ⟨henc hne, (exec_silent (fun hemits => hne (unitOf_of_emits hemits)) hexec).txout⟩, hdec, hunp⟩

end Sys2Proof.Proofs
end

section
/-! PROOFS. Operations of different units commute (R271). Apart from the parameters an operation looks at the registers of its
own unit only, and what it does to the log and to the TX stream does not depend on what they hold. -/

namespace Sys2Proof.Proofs

open Sys2Proof Sys2Proof.Machine
open Sys2Proof.Spec (statusBit givenByte)

/-! ### What an operation looks at -/

/-- The state `x` with the registers and the buffer of unit `u`, and the parameters, as in `s`. -/
def graft (u : BlockUnit) (s x : State) : State :=
  match u with
  | .sys | .sch => { x with cfg := s.cfg }
  | .crc => { x with cfg := s.cfg, crcAcc := s.crcAcc }
  | .enc => { x with cfg := s.cfg, encState := s.encState, encRem := s.encRem, encCrc := s.encCrc }
  | .dec =>
    { x with
      cfg := s.cfg, decState := s.decState, decCnt := s.decCnt, decL := s.decL, decOff := s.decOff, decRes := s.decRes,
      decCrcCalc := s.decCrcCalc, decCrcRecv := s.decCrcRecv, rxbuf := s.rxbuf }
  | .unp =>
    { x with
      cfg := s.cfg, ubuf := s.ubuf, ubufLen := s.ubufLen, uMask := s.uMask, uRes := s.uRes, uValid := s.uValid,
      uRaw := s.uRaw, uConsumed := s.uConsumed, uTs := s.uTs, draws := s.draws }

theorem sameUnit_graft (u : BlockUnit) (s x : State) : SameUnit u s (graft u s x) := by
  cases u <;> simp [graft]

/-- A state that agrees with `s` on the unit and the parameters is its own graft. -/
theorem graft_eq_of_same {u : BlockUnit} {s x : State} (h : SameUnit u s x) (hcfg : x.cfg = s.cfg) : graft u s x = x := by
  cases u with
  | sys | sch => rw [graft, ← hcfg]
  | crc =>
    rw [sameUnit_crc] at h
    rw [graft, ← hcfg, ← h]
  | enc =>
    obtain ⟨hst, hrem, hcrc⟩ := sameUnit_enc.1 h
    rw [graft, ← hcfg, ← hst, ← hrem, ← hcrc]
  | dec =>
    obtain ⟨h1, h2, h3, h4, h5, h6, h7, h8⟩ := sameUnit_dec.1 h
    rw [graft, ← hcfg, ← h1, ← h2, ← h3, ← h4, ← h5, ← h6, ← h7, ← h8]
  | unp =>
    obtain ⟨h1, h2, h3, h4, h5, h6, h7, h8, h9⟩ := sameUnit_unp.1 h
    rw [graft, ← hcfg, ← h1, ← h2, ← h3, ← h4, ← h5, ← h6, ← h7, ← h8, ← h9]

/-- Two outcomes that unit `u` and the host cannot tell apart: the unit's registers, the response and the bytes emitted. -/
structure SameEffect (u : BlockUnit) (t t' : State) : Prop where
  unit : SameUnit u t t'
  rsp : t'.rsp = t.rsp
  emitted : t'.emitted = t.emitted

/-- Where `o` goes on, so does `o'`, and with the same effect. -/
def Tracks (u : BlockUnit) (o o' : Host.Outcome State Fault Refusal) : Prop :=
  ∀ t, o = .next t → ∃ t', o' = .next t' ∧ SameEffect u t t'

section Rules

variable {u : BlockUnit} {x x' : State}

theorem sameEffect_answer (h : SameUnit u x x') (st : Status) (d : Word) (bytes : List Byte) :
    SameEffect u (answer st d bytes x) (answer st d bytes x') :=
  ⟨by cases u <;> exact h, rfl, rfl⟩

theorem sameEffect_raise (h : SameUnit u x x') (e : ProtoError) (info : Word) :
    SameEffect u (raise e info x) (raise e info x') := by
  refine ⟨?_, by simp, by simp⟩
  cases u with
  | sys | sch => trivial
  | crc => simpa using h
  | enc => simpa using h
  | dec =>
    rw [sameUnit_dec] at h ⊢
    cases e <;> simp [h]
  | unp =>
    rw [sameUnit_unp] at h ⊢
    cases e <;> simp [h]

theorem SameEffect.tracks (h : SameEffect u x x') : Tracks u (.next x) (.next x') := by
  rintro t ⟨⟩
  exact ⟨x', rfl, h⟩

theorem tracks_answer (h : SameUnit u x x') (st : Status) (d : Word) (bytes : List Byte) :
    Tracks u (.next (answer st d bytes x)) (.next (answer st d bytes x')) :=
  (sameEffect_answer h st d bytes).tracks

/-- The log may differ between the two states: a refusal sets its bit and looks at no other. -/
theorem tracks_refuse (r : PortRefusal) (h : SameUnit u x x') : Tracks u (.next (refuse r x)) (.next (refuse r x')) :=
  tracks_answer (x := { x with errlog := withLogBit r.logBit x.errlog })
    (x' := { x' with errlog := withLogBit r.logBit x'.errlog }) (by cases u <;> exact h) _ _ _

theorem Tracks.ite {p : Prop} [Decidable p] {a b a' b' : Host.Outcome State Fault Refusal} (ha : Tracks u a a')
    (hb : Tracks u b b') : Tracks u (if p then a else b) (if p then a' else b') := by
  split_ifs
  · exact ha
  · exact hb

theorem tracks_orFault {o o' : Option State} (h : ∀ t, o = some t → ∃ t', o' = some t' ∧ SameEffect u t t') :
    Tracks u (orFault o) (orFault o') := by
  intro t ht
  obtain ⟨t', ht', heffect⟩ := h t (orFault_eq_next.1 ht)
  exact ⟨t', orFault_eq_next.2 ht', heffect⟩

theorem tracks_orFault_map {α : Type} {o : Option α} {f f' : α → State} (h : ∀ a, SameEffect u (f a) (f' a)) :
    Tracks u (orFault (o.map f)) (orFault (o.map f')) := by
  refine tracks_orFault fun t ht => ?_
  obtain ⟨a, rfl, rfl⟩ := Option.map_eq_some_iff.1 ht
  exact ⟨f' a, rfl, h a⟩

end Rules

/-! ### Operation by operation -/

section Local

variable (s x : State)

theorem execCrcUpd_tracks (b : Byte) : Tracks .crc (execCrcUpd b s) (execCrcUpd b (graft .crc s x)) :=
  tracks_answer (by simp [graft]) _ _ _

theorem execEncStart_tracks (len : Half) : Tracks .enc (execEncStart len s) (execEncStart len (graft .enc s x)) :=
  .ite (tracks_refuse _ (sameUnit_graft ..)) <| .ite (tracks_refuse _ (sameUnit_graft ..)) <| .ite
    (tracks_answer (by simp [graft]) _ _ _) (tracks_answer (by simp [graft]) _ _ _)

theorem execEncPush_tracks (b : Byte) : Tracks .enc (execEncPush b s) (execEncPush b (graft .enc s x)) :=
  .ite (tracks_refuse _ (sameUnit_graft ..)) <| .ite
    (tracks_answer (by simp [graft]) _ _ _) (tracks_answer (by simp [graft]) _ _ _)

theorem execDecRd_tracks (idx : Half) : Tracks .dec (execDecRd idx s) (execDecRd idx (graft .dec s x)) :=
  .ite (tracks_refuse _ (sameUnit_graft ..)) <| .ite (tracks_refuse _ (sameUnit_graft ..)) <|
    tracks_orFault_map fun _ => sameEffect_answer (sameUnit_graft ..) _ _ _

theorem execUnpPush_tracks (b : Byte) : Tracks .unp (execUnpPush b s) (execUnpPush b (graft .unp s x)) :=
  .ite (tracks_refuse _ (sameUnit_graft ..)) <|
    tracks_orFault_map fun _ => sameEffect_answer (by simp [graft]) _ _ _

theorem execUnpRd_tracks (slot : BitVec 5) : Tracks .unp (execUnpRd slot s) (execUnpRd slot (graft .unp s x)) := by
  have hsame := sameUnit_graft .unp s x
  unfold execUnpRd
  cases slotOf slot with
  | none => exact tracks_refuse _ hsame
  | some i => exact .ite (tracks_refuse _ hsame) (.ite (tracks_answer hsame _ _ _) (tracks_answer hsame _ _ _))

theorem execSchRd_tracks (slot : BitVec 5) : Tracks .sch (execSchRd slot s) (execSchRd slot (graft .sch s x)) := by
  unfold execSchRd
  cases slotOf slot with
  | none => exact tracks_refuse _ (sameUnit_graft ..)
  | some i => exact tracks_answer (sameUnit_graft ..) _ _ _

/-- The checksum is taken over `RXBUF` at the place the geometry registers give, all of them the decoder's. -/
theorem decCheck_tracks {t : State} (h : decCheck s = some t) :
    ∃ t', decCheck (graft .dec s x) = some t' ∧ SameEffect .dec t t' := by
  obtain ⟨hsize, rfl⟩ := decCheck_eq_some.1 h
  refine ⟨_, decCheck_eq_some.2 ⟨hsize, rfl⟩, ?_⟩
  dsimp only [graft]
  split_ifs
  · exact sameEffect_answer (by simp) _ _ _
  · exact sameEffect_raise (by simp) _ _

theorem decAcc_tracks {b : Byte} {t : State} (h : decAcc b s = some t) :
    ∃ t', decAcc b (graft .dec s x) = some t' ∧ SameEffect .dec t t' := by
  obtain ⟨hroom, ⟨hmore, rfl⟩ | ⟨hlast, hterm, rfl⟩ | ⟨hlast, hterm, hcheck⟩⟩ := decAcc_eq_some.1 h
  · exact ⟨_, decAcc_eq_some.2 ⟨hroom, .inl ⟨hmore, rfl⟩⟩, sameEffect_answer (by simp [graft]) _ _ _⟩
  · exact ⟨_, decAcc_eq_some.2 ⟨hroom, .inr (.inl ⟨hlast, hterm, rfl⟩)⟩, sameEffect_raise (by simp [graft]) _ _⟩
  · obtain ⟨t', ht', heffect⟩ := decCheck_tracks _ x hcheck
    exact ⟨t', decAcc_eq_some.2 ⟨hroom, .inr (.inr ⟨hlast, hterm, ht'⟩)⟩, heffect⟩

theorem decHeader_tracks (b : Byte) : Tracks .dec (orFault (decHeader b s)) (orFault (decHeader b (graft .dec s x))) := by
  have hcfg : (graft .dec s x).cfg = s.cfg := rfl
  rw [decHeader_eq, decHeader_eq, hcfg]
  split_ifs
  · exact tracks_answer (by simp [graft]) _ _ _
  · exact tracks_answer (by simp [graft]) _ _ _
  · exact (sameEffect_raise (by simp [graft]) _ _).tracks

theorem takeByte_tracks (b : Byte) : Tracks .dec (orFault (takeByte b s)) (orFault (takeByte b (graft .dec s x))) := by
  cases hst : s.decState with
  | hdr =>
    rw [takeByte_hdr hst, takeByte_hdr (s := graft .dec s x) hst]
    exact decHeader_tracks s x b
  | len =>
    rw [takeByte_len hst, takeByte_len (s := graft .dec s x) hst, decLen_eq, decLen_eq]
    exact tracks_answer (by simp [graft]) _ _ _
  | lenh =>
    rw [takeByte_lenh hst, takeByte_lenh (s := graft .dec s x) hst, decLenHigh_eq, decLenHigh_eq]
    exact tracks_answer (by simp [graft]) _ _ _
  | lenl =>
    rw [takeByte_lenl hst, takeByte_lenl (s := graft .dec s x) hst, decLenLow_eq, decLenLow_eq]
    exact tracks_answer (by simp [graft]) _ _ _
  | acc =>
    rw [takeByte_acc hst, takeByte_acc (s := graft .dec s x) hst]
    exact tracks_orFault fun t => decAcc_tracks s x

/-- The draw counter is counted to the unpacker, so that the timestamp is the same too (R218, log 8). -/
theorem takeResult_sameEffect (r : UnpackResult) : SameEffect .unp (takeResult r s) (takeResult r (graft .unp s x)) := by
  cases r with
  | record raw valid consumed => exact sameEffect_answer (by simp [graft]) _ _ _
  | schemaExhausted hi => exact sameEffect_raise (sameUnit_graft ..) _ _
  | truncatedPayload i remaining => exact sameEffect_raise (sameUnit_graft ..) _ _

theorem runMask_tracks (mask : Word) :
    Tracks .unp (orFault (runMask mask s)) (orFault (runMask mask (graft .unp s x))) := by
  refine tracks_orFault fun t ht => ?_
  obtain ⟨hsize, rfl⟩ := runMask_eq_some_takeResult.1 ht
  exact ⟨_, runMask_eq_some_takeResult.2 ⟨hsize, rfl⟩, takeResult_sameEffect { s with uMask := mask } x _⟩

end Local

/-- An operation has its effect wherever the registers of its unit and the parameters are as they are. (SYS is left out:
`CSR.RD` looks at every unit.) -/
theorem exec_tracks {i : Instr} (hi : unitOf i ≠ .sys) (s x : State) :
    Tracks (unitOf i) (exec i s) (exec i (graft (unitOf i) s x)) := by
  cases i using instr_cases with
  | nop | reset | csrRd n => exact absurd rfl hi
  | crcClr | encAbort | decDrop | unpClr => exact tracks_answer (by simp [unitOf, graft]) _ _ _
  | crcUpd b => exact execCrcUpd_tracks s x b
  | encStart len => exact execEncStart_tracks s x len
  | encPush b => exact execEncPush_tracks s x b
  | byte i b hb =>
    rw [unitOf_of_givenByte hb, exec_of_givenByte hb, exec_of_givenByte hb]
    exact takeByte_tracks s x b
  | decRd idx => exact execDecRd_tracks s x idx
  | unpPush b => exact execUnpPush_tracks s x b
  | run i m hm =>
    rw [unitOf_of_givenMask hm, exec_of_givenMask hm, exec_of_givenMask hm]
    exact runMask_tracks s x m
  | unpRd slot => exact execUnpRd_tracks s x slot
  | schRd slot => exact execSchRd_tracks s x slot

/-! ### Either order -/

theorem SameUnit.symm {u : BlockUnit} {s t : State} (h : SameUnit u s t) : SameUnit u t s := by
  cases u with
  | sys | sch => trivial
  | crc | enc | dec | unp => simp only [sameUnit_crc, sameUnit_enc, sameUnit_dec, sameUnit_unp] at h ⊢; simp [h]

theorem SameUnit.trans {u : BlockUnit} {s t v : State} (h : SameUnit u s t) (h' : SameUnit u t v) : SameUnit u s v := by
  cases u with
  | sys | sch => trivial
  | crc | enc | dec | unp => simp only [sameUnit_crc, sameUnit_enc, sameUnit_dec, sameUnit_unp] at h h' ⊢; simp [h, h']

/-- The block is its units, the log and the TX stream. -/
theorem sameBlock_of_sameUnit {s t : State} (hunit : ∀ u, SameUnit u s t) (hlog : t.errlog = s.errlog)
    (htx : t.txout = s.txout) : SameBlock s t := by
  have hcrc := sameUnit_crc.1 (hunit .crc)
  have henc := sameUnit_enc.1 (hunit .enc)
  have hdec := sameUnit_dec.1 (hunit .dec)
  have hunp := sameUnit_unp.1 (hunit .unp)
  simp [SameBlock, hcrc, henc, hdec, hunp, hlog, htx]

/-- The log takes its bits in any order (R31). -/
theorem statusLog_comm (st st' : Status) (log : Word) :
    statusLog st (statusLog st' log) = statusLog st' (statusLog st log) := by
  unfold statusLog
  cases statusBit st with
  | none => rfl
  | some k =>
    cases statusBit st' with
    | none => rfl
    | some k' =>
      simp only [Option.elim_some, withLogBit]
      rw [BitVec.or_assoc, BitVec.or_comm (1#32 <<< k'), ← BitVec.or_assoc]

/-- An operation run where its unit is as in `s` has the effect it has from `s`. -/
theorem exists_exec_of_same {i : Instr} {s x t : State} (hi : unitOf i ≠ .sys) (hsame : SameUnit (unitOf i) s x)
    (hcfg : x.cfg = s.cfg) (h : exec i s = .next t) : ∃ t', exec i x = .next t' ∧ SameEffect (unitOf i) t t' := by
  rw [← graft_eq_of_same hsame hcfg]
  exact exec_tracks hi s x t h

/-- Both orders bring the units where they were brought: the unit of each operation by that operation, the others nowhere. -/
theorem sameUnit_of_two_orders {ui uj : BlockUnit} {s t u t' u' : State} (hne : ui ≠ uj)
    (hst : OnlyUnit ui s t) (htu : OnlyUnit uj t u) (hst' : OnlyUnit uj s t') (htu' : OnlyUnit ui t' u')
    (hi : SameUnit ui t u') (hj : SameUnit uj u t') (v : BlockUnit) : SameUnit v u u' := by
  by_cases hvi : v = ui
  · subst hvi
    exact (htu v hne).symm.trans hi
  · by_cases hvj : v = uj
    · subst hvj
      exact hj.trans (htu' v hne.symm)
    · exact (htu v hvj).symm.trans ((hst v hvi).symm.trans ((hst' v hvj).trans (htu' v hvi)))

theorem ne_reset_of_unitOf {i : Instr} (h : unitOf i ≠ .sys) : i ≠ .reset := by
  rintro rfl
  exact h rfl

/-- The log takes the bit of each of the two statuses, which do not depend on the order. -/
theorem errlog_of_two_orders {i j : Instr} {s t u t' u' : State} (hi : i ≠ .reset) (hj : j ≠ .reset)
    (hst : exec i s = .next t) (htu : exec j t = .next u) (hst' : exec j s = .next t') (htu' : exec i t' = .next u')
    (hrsp_j : t'.rsp = u.rsp) (hrsp_i : u'.rsp = t.rsp) : u'.errlog = u.errlog := by
  obtain ⟨ri, hri, hlog_t⟩ := (exec_completes hi hst).answers
  obtain ⟨rj, hrj, hlog_u⟩ := (exec_completes hj htu).answers
  obtain ⟨rj', hrj', hlog_t'⟩ := (exec_completes hj hst').answers
  obtain ⟨ri', hri', hlog_u'⟩ := (exec_completes hi htu').answers
  obtain rfl : rj' = rj := Option.some.inj (hrj'.symm.trans (hrsp_j.trans hrj))
  obtain rfl : ri' = ri := Option.some.inj (hri'.symm.trans (hrsp_i.trans hri))
  rw [hlog_u', hlog_t', hlog_u, hlog_t, statusLog_comm]

/-- At most one of the two operations is the encoder's, so that what they emit cannot be mixed up (R86). -/
theorem txout_of_two_orders {i j : Instr} {s t u t' u' : State} (hne : unitOf i ≠ unitOf j)
    (hst : exec i s = .next t) (htu : exec j t = .next u) (hst' : exec j s = .next t') (htu' : exec i t' = .next u')
    (hemitted_j : t'.emitted = u.emitted) (hemitted_i : u'.emitted = t.emitted) : u'.txout = u.txout := by
  have hsilent : t.emitted = [] ∨ u.emitted = [] := by
    by_cases hemits : emits i
    · refine .inr (exec_silent (fun hemits_j => hne ?_) htu).emitted
      rw [unitOf_of_emits hemits, unitOf_of_emits hemits_j]
    · exact .inl (exec_silent hemits hst).emitted
  rw [(emittedBytesAreAppended i t' u' htu').1, (emittedBytesAreAppended j s t' hst').1,
    (emittedBytesAreAppended j t u htu).1, (emittedBytesAreAppended i s t hst).1, hemitted_i, hemitted_j]
  obtain hnone | hnone := hsilent <;> simp [hnone]

/-- Settles O58: each operation finds its unit and the parameters as it would have found them first, and no unit, log bit or
emitted byte depends on the order. -/
theorem operationsOfDifferentUnitsCommute : Obligations.OperationsOfDifferentUnitsCommute := by
  intro i j s t u hne hi hj hexec_i hexec_j
  have hri := ne_reset_of_unitOf hi
  have hrj := ne_reset_of_unitOf hj
  have hst := exec_onlyUnit hri hexec_i
  have htu := exec_onlyUnit hrj hexec_j
  obtain ⟨t', hexec_j', heffect_j⟩ := exists_exec_of_same hj (hst _ hne.symm).symm (exec_cfg_port hexec_i).1.symm hexec_j
  have hst' := exec_onlyUnit hrj hexec_j'
  obtain ⟨u', hexec_i', heffect_i⟩ := exists_exec_of_same hi (hst' _ hne) (exec_cfg_port hexec_j').1 hexec_i
  have htu' := exec_onlyUnit hri hexec_i'
  refine ⟨t', u', hexec_j', hexec_i', sameBlock_of_sameUnit
    (sameUnit_of_two_orders hne hst htu hst' htu' heffect_i.unit heffect_j.unit) ?_ ?_, heffect_j.rsp, heffect_i.rsp⟩
  · exact errlog_of_two_orders hri hrj hexec_i hexec_j hexec_j' hexec_i' heffect_j.rsp heffect_i.rsp
  · exact txout_of_two_orders hne hexec_i hexec_j hexec_j' hexec_i' heffect_j.emitted heffect_i.emitted

end Sys2Proof.Proofs
end

section
/-! PROOFS. The converse of decoding (30_encoding.md, section 1): a command word that decodes is spelled by a row of R81, and
encoding a row's instruction with an argument that fits gives the row's word back. With it, the reset input beside `RESET`
(R282). -/

namespace Sys2Proof.Proofs

open Sys2Proof Sys2Proof.Machine
open Sys2Proof.Spec (cmdRows)

/-! ### Command words that decode -/

/-- Code and argument are the whole of a command word (R80). -/
theorem cmdOp_append_cmdArg (w : PortWord) : cmdOp w ++ cmdArg w = w :=
  (BitVec.extractLsb'_append_extractLsb'_eq_extractLsb' rfl).trans BitVec.extractLsb'_eq_self

/-- Only the words that R81 spells decode: a word without a row is refused for its code, one of a row whose argument does not
fit for its reserved bits (R82). -/
theorem spelledByRow_of_decodeCmd {w : PortWord} {i : Instr} (h : decodeCmd w = .ok i) : SpelledByRow w i := by
  rw [← cmdOp_append_cmdArg w] at h
  by_cases hop : cmdOp w ∈ cmdRows.map (·.1)
  · obtain ⟨r, hr, hcode⟩ := List.mem_map.1 hop
    rw [← hcode, decodeCmd_of_row hr] at h
    split_ifs at h with hfits
    cases h
    exact ⟨r, hr, cmdArg w, hfits, by rw [hcode, cmdOp_append_cmdArg], rfl⟩
  · rw [decodeCmd_of_unassigned hop] at h
    cases h

/-! ### Their encoding -/

/-- An argument that fits `k` bits is not changed by taking its `k`-bit operand and laying it out in 32 bits again. -/
theorem setWidth_operand_of_lt {arg : Word} {k : Nat} (hfits : arg.toNat < 2 ^ k) :
    (arg.setWidth k).setWidth 32 = arg := by
  rw [← BitVec.toNat_inj, BitVec.toNat_setWidth, BitVec.toNat_setWidth, Nat.mod_eq_of_lt hfits, Nat.mod_eq_of_lt arg.isLt]

/-- Each of the sixteen rows of R81: its instruction is encoded by the row's code and the operand alone, the reserved bits
being 0. -/
theorem encode_of_row {r : BitVec 8 × Nat × (Word → Instr)} (hr : r ∈ cmdRows) (arg : Word) :
    encode (r.2.2 arg) = .cmd (r.1 ++ (arg.setWidth r.2.1).setWidth 32) := by
  simp only [cmdRows, List.mem_cons, List.not_mem_nil, or_false] at hr
  rcases hr with rfl | rfl | rfl | rfl | rfl | rfl | rfl | rfl | rfl | rfl | rfl | rfl | rfl | rfl | rfl | rfl
  all_goals simp [encode, cmdWord, BitVec.of_length_zero (x := arg.setWidth 0)]

theorem encode_of_spelledByRow {w : PortWord} {i : Instr} (h : SpelledByRow w i) : encode i = .cmd w := by
  obtain ⟨r, hr, arg, hfits, rfl, rfl⟩ := h
  rw [encode_of_row hr, setWidth_operand_of_lt hfits]

/-- Settles O2: what decodes is spelled by a row of R81, and what a row spells is encoded by that word. -/
theorem commandWordHasOneMeaning : Obligations.CommandWordHasOneMeaning :=
  fun _ _ _ hdec => encode_of_spelledByRow (spelledByRow_of_decodeCmd hdec)

/-! ### The reset input -/

/-- Settles O10: both lay the values of R55 over the registers, which keeps the TX history; only `RESET` answers. -/
theorem resetInputIsResetWithoutResponse : Obligations.ResetInputIsResetWithoutResponse :=
  fun s => ⟨_, _, step_resetInput s, exec_reset s, rfl, rfl, resetBlock_txout s, resetBlock_txout s⟩

end Sys2Proof.Proofs
end
